-- ==== Sys2Proof/Word.lean ====
section
/-! DEFINITION. The word and index types of the Alobrin 4620: a DRAM word is 32 bits (00_scope, Conventions), and every
numbered bay, slot, zone or position of the chassis is a bounded index counted from 0 (the manual counts from 1). -/

namespace Sys2Proof

/-- A DRAM word, 32 bits; bit 0 is its least significant bit (00_scope, Layouts). -/
abbrev Word := BitVec 32

/-- One byte of a slot link frame. -/
abbrev Byte := BitVec 8

/-- Blade slots 1–16, as 0–15. -/
abbrev Slot := Fin 16

/-- Power supply bays 1–6, as 0–5. -/
abbrev PsuBay := Fin 6

/-- Fan positions 1A, 1B, 2A, … 4B, as 0–7. -/
abbrev FanPos := Fin 8

/-- Fan zones 1–4, as 0–3. -/
abbrev Zone := Fin 4

/-- Uplink bays A–D, as 0–3. -/
abbrev UplinkBay := Fin 4

/-- The ten module bays in bay order: PSU bays 1–6 as 0–5, uplink bays A–D as 6–9 (R80, R81). -/
abbrev ModuleBay := Fin 10

/-- Inventory entries 1–26, as 0–25: slots, PSU bays, uplink bays (section 1.1). -/
abbrev EntryNo := Fin 26

/-- Every slot, in slot order. -/
def allSlots : List Slot := [0, 1, 2, 3, 4, 5, 6, 7, 8, 9, 10, 11, 12, 13, 14, 15]

/-- Every PSU bay, in bay order. -/
def allPsuBays : List PsuBay := [0, 1, 2, 3, 4, 5]

/-- Every fan position, 1A first. -/
def allFans : List FanPos := [0, 1, 2, 3, 4, 5, 6, 7]

/-- Every zone, in order. -/
def allZones : List Zone := [0, 1, 2, 3]

/-- Every uplink bay, A first. -/
def allUplinks : List UplinkBay := [0, 1, 2, 3]

/-- Every module bay: PSU bays 1–6, then uplink bays A–D. -/
def allModuleBays : List ModuleBay := [0, 1, 2, 3, 4, 5, 6, 7, 8, 9]

/-- Every inventory entry, in order. -/
def allEntries : List EntryNo :=
  [0, 1, 2, 3, 4, 5, 6, 7, 8, 9, 10, 11, 12, 13, 14, 15, 16, 17, 18, 19, 20, 21, 22, 23, 24, 25]

end Sys2Proof
end

