-- ==== Sys2Proof/Syntax.lean ====
section
/-! DEFINITION. The commands of the Alobrin 4620: one constructor of `Instr` for each row of spec/opcode_table.json.
The table gives no row an operand field; the operands here are what the rule of the row says the command carries
(notes/assumptions/2.md). -/

namespace Sys2Proof

/-- One access on the processor memory bus: 19 address lines, 32 data lines, one strobe (00_scope, R23). -/
inductive PortAccess where
  | read (address : BitVec 19)
  | write (address : BitVec 19) (data : Word)
deriving DecidableEq, Repr

/-- The source of a PLAIN_WRITE: the processor port, or one data word of a STORE frame of a slot link. The processor
side carries the direction of the access too, since the table has no row for a processor read (R23). -/
inductive PlainAccess where
  | processor (access : PortAccess)
  | link (slot : Slot) (offset : BitVec 16) (data : Word)
deriving DecidableEq, Repr

/-- The three words of a zone's settings that hold its curve: word 2 (T_low and T_high), word 3 (D_min), word 4 (D_max)
(section 1.13). -/
inductive CurveWord where
  | tLowHigh
  | dMin
  | dMax
deriving DecidableEq, Repr

/-- The two words of a slot record that hold thermal readings: word 2 (readings 1 and 2), word 3 (readings 3 and 4). -/
inductive ThermalWord where
  | first
  | second
deriving DecidableEq, Repr

/-- The commands of the part. A `data` operand of a settings or record write is the whole 32-bit word written. -/
inductive Instr where
  | powerOnReset
  | drcStartupDone
  | formatDone
  | resetAssert
  /-- `pulses`: the clock pulses after which SDA reads high in the Module Identity Line recovery (R87). -/
  | resetRelease (pulses : Nat)
  | headerReadAnswer
  | recoverWordAnswer
  | adoption
  | dramAccessPerformed
  | refreshDue
  | writebackUpdateTaken
  | readbackRequestTaken
  /-- `clocks`: the bytes the blade clocks after the header, each giving one byte on data-out (R26). -/
  | fetch (slot : Slot) (offset : BitVec 16) (clocks : Nat)
  | peek (slot : Slot) (clocks : Nat)
  /-- `offset` is the header's; it is sent only when this word opens its frame (R27). -/
  | store (slot : Slot) (offset : BitVec 16) (data : Word)
  | merge (slot : Slot) (offset : BitVec 16) (mask : Word) (data : Word)
  | unknownCommand (slot : Slot) (command : Byte)
  /-- `bytes`: the complete bytes that arrive before select is released, after those of earlier commands. -/
  | frameEnd (slot : Slot) (bytes : List Byte)
  | plainWrite (access : PlainAccess)
  | modeRequest (data : Word)
  | abort (data : Word)
  | clockLoad (data : Word)
  | faultClear (slot : Slot) (data : Word)
  | linkClear (slot : Slot) (data : Word)
  | psuClear (bay : PsuBay) (data : Word)
  | uplinkClear (bay : UplinkBay) (data : Word)
  | imageMarkerWrite (data : Word)
  | groupFlagsClear (data : Word)
  | eventRingHead (data : Word)
  | eventGroupEnables (data : Word)
  | redundancyPolicy (data : Word)
  | margin (data : Word)
  | baseLoad (data : Word)
  | defaultStandbyAllowance (data : Word)
  | enable (slot : Slot) (data : Word)
  | powerClass (slot : Slot) (data : Word)
  | uplinkPreferenceList (slot : Slot) (data : Word)
  | activityCount (slot : Slot) (data : Word)
  | activityAction (slot : Slot) (data : Word)
  | locate (slot : Slot) (data : Word)
  | forcedThrottle (slot : Slot) (data : Word)
  | floorDuty (zone : Zone) (data : Word)
  | fanWattsAtFullDuty (zone : Zone) (data : Word)
  | zoneCurveSetting (zone : Zone) (which : CurveWord) (data : Word)
  | tCrit (zone : Zone) (data : Word)
  | moduleFloorDuty (data : Word)
  | request (slot : Slot) (data : Word)
  | drawnReport (slot : Slot) (data : Word)
  | thermalReading (slot : Slot) (which : ThermalWord) (data : Word)
  | commit (slot : Slot) (data : Word)
  | fruAreaWrite (slot : Slot) (word : Fin 64) (data : Word)
  | slotRawReadingChange (slot : Slot) (pres : Bool) (latch : Bool)
  | presenceDebounceExpiry (slot : Slot)
  | sbyPgGood (slot : Slot)
  | sbyPgLost (slot : Slot)
  | mainPgGood (slot : Slot)
  | mainPgLost (slot : Slot)
  | standbyTimeout (slot : Slot)
  | standbyStepDelayExpiry (slot : Slot)
  | identityTimeout (slot : Slot)
  | mainTimeout (slot : Slot)
  | mainStepDelayExpiry (slot : Slot)
  | mainDownDelayExpiry (slot : Slot)
  | standbyDownDelayExpiry (slot : Slot)
  | activityTimerExpiry (slot : Slot)
  | blinkCounterWrap
  | modulePresenceChange (bay : ModuleBay) (present : Bool)
  | modulePresenceDebounceExpiry (bay : ModuleBay)
  | verifyWordAnswer (slot : Slot)
  | readerAttemptStart
  | readerWord0Read (data : Word)
  /-- `words`: words 1 to n − 1 of the record, in order (R81). -/
  | readerRecordRead (words : List Word)
  | readerNack
  | readerSclTimeout
  | retryTimerExpiry (bay : ModuleBay)
  | pwrOkGood (bay : PsuBay)
  | pwrOkLost (bay : PsuBay)
  | startTimerExpiry (bay : PsuBay)
  | restartTimerExpiry (bay : PsuBay)
  | alertRawChange (bay : PsuBay) (level : Bool)
  | alertDebounceExpiry (bay : PsuBay)
  | faultDecayExpiry (bay : PsuBay)
  | reduceDeadline (slot : Slot)
  | passComplete
  | fanPresenceChange (position : FanPos) (present : Bool)
  | fanPresenceDebounceExpiry (position : FanPos)
  /-- `edges`: the rising edges each position's FAN_TACH gave in the gate, beyond those already counted (R130). -/
  | tachGateEnd (edges : Vector Nat 8)
  | spinUpEnd (position : FanPos)
  | probeTimerExpiry (position : FanPos)
  | freshnessTimerExpiry (slot : Slot)
  | controlPeriod
  | modPgGood (bay : UplinkBay)
  | modPgLost (bay : UplinkBay)
  | powerTimerExpiry (bay : UplinkBay)
  | linkUpChange (bay : UplinkBay) (level : Bool)
  | linkUpDebounceExpiry (bay : UplinkBay)
  | linkDownDebounceExpiry (bay : UplinkBay)
  | flapDecayExpiry (bay : UplinkBay)
  | settleTimerExpiry (slot : Slot)
  | clockSecond
  | eventRecordPerformed
  | ringTailPerformed
  | strobeRelease
  | ledBlinkEdge
deriving DecidableEq, Repr

end Sys2Proof
end

