-- ==== Sys2Proof/Decode.lean ====
section
/-! DEFINITION. The command a word of the opcode table spells. spec/opcode_table.json gives no row any bits ("fields": []), so no
word spells a command (notes/assumptions/1.md). -/

namespace Sys2Proof

/-- The command that `nbits` bits `w` spell by the table: none, for no row has bits. -/
def decodeTableWord (_nbits _w : Nat) : Option Instr := none

end Sys2Proof
end

