-- ==== Sys2Proof/Config.lean ====
section
/-! DEFINITION. What the manual fixes for every 4620 (lengths in chassis ticks of 1 ms, sizes, constants) and the values the
manual leaves open (`Config.blockedNeed`, `Config.blockedWithoutFloor`, `Config.nackedByte`, `Config.readCut`). -/

namespace Sys2Proof.Config

/-- The image marker (R17). -/
def marker : Word := 0xA4620C1E#32

/-- The word address of image offset 0 (section 1.1). -/
def imageBase : Nat := 0x7C000

/-- Entries of the write-back queue and of the read-back list (section 2.8). -/
def queueSize : Nat := 64

/-- Entries of a link's write buffer (R29). -/
def bufferSize : Nat := 4

/-- The largest refresh debt (R35). -/
def maxDebt : Nat := 8

/-- DRAM rows (00_scope; R35). -/
def dramRows : Nat := 2048

/-- Refresh due times in one chassis tick (R35). -/
def duesPerTick : Nat := 64

/-- Debounce of module presence, fan presence and ALERT, in ticks (R80, R129, R93). -/
def lineDebounce : Nat := 20

/-- Retry of a failed identity read (R82). -/
def readRetry : Nat := 100

/-- PSU start timer (R90). -/
def psuStart : Nat := 2000

/-- PSU restart timer (R92). -/
def psuRestart : Nat := 10000

/-- PSU fault decay timer (R94). -/
def psuDecay : Nat := 60000

/-- Fan spin-up (R129, R133). -/
def spinUp : Nat := 5000

/-- Fan probe timer (R133). -/
def fanProbe : Nat := 30000

/-- Freshness of thermal readings (R134). -/
def freshness : Nat := 10000

/-- Tach gate and control period (R130, R139). -/
def gate : Nat := 1000

/-- Uplink module power timer (R148). -/
def modulePower : Nat := 2000

/-- Flap decay timer (R150). -/
def flapDecay : Nat := 10000

/-- Length of the blink cycle (R65). -/
def blinkCycle : Nat := 2000

/-- Hand-overs one event may carry out before what is left waits for the next step (notes/assumptions/5.md). -/
def agendaFuel : Nat := 4000

/-- Passes of the power allocator one event may carry on before what is left waits for the next event (notes/assumptions/5.md). -/
def passFuel : Nat := 100

/-- FREE VALUE: bits 0–15 of ADMISSION_BLOCKED's detail are f − s (R113), and the manual states no encoding for an f below s.
For a shortfall of `k` watts this constant gives the bits (notes/assumptions/20.md). -/
opaque blockedNeed (k : Nat) : BitVec 16

/-- FREE VALUE: the same bits for a slot that has no active profile, for which R113's f − s has no f. For an allowance of `s` watts this
constant gives the bits (notes/assumptions/44.md). -/
opaque blockedWithoutFloor (s : Nat) : BitVec 16

/-- FREE VALUE: which byte an EEPROM does not acknowledge (R81): the address for writing, the byte offset, or the address for reading. The
row READER_NACK does not carry it; `k` is how many free values have been drawn before (notes/assumptions/37.md). -/
opaque nackedByte (k : Nat) : Fin 3

/-- FREE VALUE: how many symbols of the read under way have gone out where SCL is held low, or where a removal abandons the attempt (R81,
R83). No row carries it; `k` is how many free values have been drawn before (notes/assumptions/37.md). -/
opaque readCut (k : Nat) : Nat

end Sys2Proof.Config
end

