-- ==== Sys2Proof/Machine/State.lean ====
section
/-! DEFINITION. The state of the Alobrin 4620 as plain data: everything the twelve blocks hold (00_scope, Block diagram, and
each chapter's own "holds" list), the chassis lines in and out, the DRAM, and the queue of waiting commands. INVENTORY.md
lists every field with its rule and its value after power-on reset. -/

namespace Sys2Proof.Machine

/-! ## Common types -/

/-- A timer of the part: `none` while stopped, else the chassis ticks left (00_scope, Time). -/
abbrev Timer := Option Nat

/-- A time of the chassis clock: days and seconds of day (R85). -/
structure Stamp where
  days : Nat
  secs : Nat
deriving DecidableEq, Repr

/-- Day 0, 00:00:00. -/
def Stamp.zero : Stamp := ⟨0, 0⟩

/-- A time of day as the chassis clock and the load fields hold it (R169). -/
structure Clock where
  days : Nat
  hours : Nat
  minutes : Nat
  seconds : Nat
deriving DecidableEq, Repr

/-- Operating modes (9.1). -/
inductive Mode where | configure | operate | quiesce
deriving DecidableEq, Repr

/-- Slot states (3.1). -/
inductive SlotState where
  | empty | detecting | held | standbyUp | identifying | ready | admitWait | mainUp | run | detach | mainDown | standbyDown
  | fault
deriving DecidableEq, Repr

/-- Link states (2.4). -/
inductive LinkState where | normal | restricted | isolated
deriving DecidableEq, Repr

/-- Uplink states (8.1). -/
inductive UplinkState where | empty | identifying | rejected | off | powering | linkDown | up | held | fault
deriving DecidableEq, Repr

/-- A blade's profile, as clamped by R70. -/
structure BladeProfile where
  standbyFloor : Nat
  mainFloor : Nat
  cap : Nat
  sensors : Nat
  weight : Nat
deriving DecidableEq, Repr

/-- An uplink module's figures, as clamped by R70. -/
structure ModuleFigures where
  capacity : Nat
  maxMembers : Nat
  power : Nat
deriving DecidableEq, Repr

/-! ## Hand-overs inside one event -/

/-- A hand-over from one block to another, made and acted on in one event (R43, R80, R84, R101, R121, R142, R152, R165). -/
inductive Msg where
  | ssqAdmit (slot : Slot)
  | ssqShed (slot : Slot)
  | ssqDetachDone (slot : Slot)
  | ssqVerdict (slot : Slot) (valid : Bool)
  | ssqMode (old new : Mode)
  | ssqAbort
  | palState (slot : Slot) (state : SlotState)
  | palProfile (slot : Slot) (profile : Option BladeProfile)
  | palSilent (slot : Slot) (silent : Bool)
  | palCooling (zone : Zone) (factor : Nat)
  | palReservation (watts : Nat)
  | palModule (bay : UplinkBay) (state : UplinkState)
  | palAvailable (watts : Nat)
  | palMode (mode : Mode) (changePending : Bool)
  | palAbort
  | ulcPlace (slot : Slot)
  | ulcDetach (slot : Slot)
  | ulcDrop (slot : Slot)
  | ulcEmpty (slot : Slot)
  | ulcWeight (slot : Slot) (weight : Option Nat)
  | ulcMode (mode : Mode)
  | ulcPowerOn (bay : UplinkBay)
  | ulcPresence (bay : UplinkBay) (present : Bool)
  | ulcVerdict (bay : UplinkBay) (figures : Option ModuleFigures)
  | clcMember (slot : Slot) (member : Bool)
  | clcSensors (slot : Slot) (sensors : Option Nat)
  | clcEmpty (slot : Slot)
  | clcModule (bay : UplinkBay) (powered : Bool)
  | meuReport
  | psmPresence (bay : PsuBay) (present : Bool)
  | psmVerdict (bay : PsuBay) (rated : Option Nat)
  /-- a change of the slot's state is reported to the INV (R43) -/
  | invState (slot : Slot) (state : SlotState)
  /-- one slot's part of an abort, and of a change of the actual mode (R60, R61) -/
  | ssqAbortAt (slot : Slot)
  | ssqModeAt (slot : Slot) (old new : Mode)
deriving DecidableEq, Repr

/-! ## DRAM and the memory path -/

/-- The DRAM controller (2.6, 2.7). -/
structure Drc where
  /-- the start-up after power-on has ended (R37) -/
  started : Bool
  /-- refresh debt, 0–8 (R35) -/
  debt : Nat
  /-- refresh row counter, 0–2,047 (R35) -/
  row : Nat
  /-- the link last served in the round-robin (R34) -/
  lastLink : Slot
deriving DecidableEq, Repr

/-- What a write-back entry carries (2.8). -/
inductive UpdateKind where
  | whole (value : Word)
  | fields (mask : Word) (value : Word)
  | flags (set : Word)
  /-- `clear`: a clearing of the commit field (R22) has joined the entry (notes/assumptions/9.md) -/
  | ack (length : Nat) (increase : Nat) (clear : Bool)
deriving DecidableEq, Repr

/-- A write-back entry or update: an image offset and what is to be done to that word. -/
structure Update where
  off : Nat
  kind : UpdateKind
deriving DecidableEq, Repr

/-! ### What waits for room (R38) -/

/-- An operation that waits until the write-back queue has room for its updates, or until what its block was given before it has acted,
with what it acts on (R38; notes/assumptions/13.md): a hand-over, a notice or an answer, an event of a line, a timer or the reader, or a
part of an event that a block publishes. -/
inductive Held where
  | handOver (msg : Msg)
  /-- an update that waits behind operations offered before it, and holds its block up only as R68 says of an entry's -/
  | update (u : Update)
  /-- the notices of a commit and of an FRU word, and a read-back answer (R71–R73) -/
  | invCommit (slot : Slot) (length : Nat)
  | invFru (slot : Slot)
  | invAnswer (slot : Slot) (serial : Nat) (word : Word)
  /-- the notices of the SSQ and the activity of a link (R47, R48, R58, R63, R64, R66) -/
  | ssqRequest (slot : Slot) (watts : Nat)
  | ssqEnable (slot : Slot) (on : Bool)
  | ssqActivityCount (slot : Slot) (count : Nat)
  | ssqFaultClear (slot : Slot)
  | ssqActivity (slot : Slot)
  | ssqLocate (slot : Slot) (on : Bool)
  /-- a link's error, its frame without an error, and its clearing (R30, R32) -/
  | salError (slot : Slot)
  | salGood (slot : Slot)
  | salClear (slot : Slot)
  /-- the notices of the PSM: the clear command, and the policy or the margin (R97, R99) -/
  | psmClear (bay : PsuBay)
  | psmSetting (off : Nat) (word : Word)
  /-- the notices of the PAL, and the turn of its passes (R105–R107, R109, R116, R119, R121, R126) -/
  | palRequest (slot : Slot) (watts : Nat)
  | palDrawn (slot : Slot) (drawn echo : Nat)
  | palClass (slot : Slot) (cls : Nat)
  | palAction (slot : Slot) (reclaim : Bool)
  | palForced (slot : Slot) (on : Bool)
  | palBaseLoad (watts : Nat)
  | palAllowance (watts : Nat)
  | palTurn
  /-- the MEU's: a mode request, the clock's next second and its load, flags and enables as stored, and an overflow of the ring
  (R165, R169, R170, R172) -/
  | meuMode (mode : Mode)
  | meuSecond
  | meuLoad (clock : Clock)
  | meuFlags (word : Word)
  | meuEnables (word : Word)
  | meuOverflow (group : Fin 8)
  /-- an event of a line, a timer or the reader -/
  | event (command : Instr)
deriving DecidableEq, Repr

/-- What a block takes one operation of at a time, in order: what waits for one holds the later ones of it back (R38, R68, R98, R101,
R123; notes/assumptions/13.md). A fan, a zone and the ULC are never held back: their rules let later changes go on (R143, R163). -/
inductive Scope where
  | slot (i : Slot)
  | link (i : Slot)
  | entry (e : EntryNo)
  | psu (b : PsuBay)
  | available
  | pal
  | fan (p : FanPos)
  | zone (z : Zone)
  | ulc
  | ring
  /-- any other published word, by itself -/
  | word (off : Nat)
deriving DecidableEq, Repr

/-- A read-back request: what it reads and the requester it answers (2.8, R72). -/
inductive ReadRequest where
  | verify (slot : Slot) (serial : Nat) (word : Nat)
  | header (word : Nat)
  | recover (off : Nat)
deriving DecidableEq, Repr

/-- The write-back and read-back agent (2.8). -/
structure Wra where
  queue : List Update
  /-- updates waiting for room, in the order they were offered (R38) -/
  waiting : List Update
  /-- updates offered in the event under way; empty between events (the model's own) -/
  offered : List Update
  /-- fields published in the event under way whether or not they changed, each an offset and a mask; empty between events (the
  model's own) -/
  forced : List (Nat × Word)
  reads : List ReadRequest
  readsWaiting : List ReadRequest
deriving DecidableEq, Repr

/-- The Processor Memory Port (2.1) and the lines of its bus. -/
structure Pmp where
  /-- the access whose strobe is asserted on the lines -/
  strobe : Option PortAccess
  /-- the access in progress -/
  holding : Option PortAccess
  /-- the asserted strobe is the one the access in progress, or just ended, was taken from -/
  current : Bool
  ready : Bool
  /-- the data lines as driven for a read -/
  dataOut : Option Word
deriving DecidableEq, Repr

/-- Commands of a slot link frame (section 1.13). -/
inductive FrameCommand where | fetch | store | merge | peek
deriving DecidableEq, Repr

/-- The frame decoder of a link while select is asserted and at least one byte is complete (2.2). -/
structure Frame where
  /-- ignored, refused or UNKNOWN_COMMAND: disregarded to its end (R25) -/
  disregarded : Bool
  command : FrameCommand
  /-- offset bytes received, 0–2 -/
  header : Nat
  /-- the current window offset; for FETCH the offset of the next word to read -/
  offset : Nat
  /-- bytes of the word, or of the mask and data words, being assembled, newest first -/
  part : List Byte
  /-- a MERGE whose byte 10 is complete (R28) -/
  complete : Bool
  errored : Bool
  overrun : Bool
  /-- bytes of the delivery unit still to be sent (R26) -/
  unit : List Byte
  /-- a word read and not yet begun on data-out -/
  answer : Option Word
deriving DecidableEq, Repr

/-- An entry of a link's write buffer (R29). -/
structure BufferEntry where
  off : Nat
  data : Word
  mask : Option Word
deriving DecidableEq, Repr

/-- A read a link has requested; `live` until its frame is released (R26). -/
structure LinkRead where
  off : Nat
  live : Bool
deriving DecidableEq, Repr

/-- A Slot Access Link (2.2–2.4). -/
structure Link where
  lec : Nat
  state : LinkState
  frame : Option Frame
  buffer : List BufferEntry
  reads : List LinkRead
  /-- the last byte sent on data-out; 0xFF is the line high -/
  dataOut : Byte
deriving DecidableEq, Repr

/-! ## Slot Sequencer -/

/-- The reading of PRES and LATCH (3.2). -/
inductive Reading where | absent | unlatched | seated | invalid
deriving DecidableEq, Repr

/-- Down causes (3.1). -/
inductive DownCause where | request | shed | abort | quiesce | disable | extraction
deriving DecidableEq, Repr

/-- The wait that the sequence timer is serving (chapter 3). -/
inductive SeqWait where
  | standbyTimeout | standbyStep | identity | mainTimeout | mainStep | mainDown | standbyDown
deriving DecidableEq, Repr

/-- A running sequence timer. -/
structure SeqTimer where
  wait : SeqWait
  left : Nat
deriving DecidableEq, Repr

/-- Activity states (R63). -/
inductive ActivityState where | stopped | watching | silent
deriving DecidableEq, Repr

/-- LED patterns (R65). -/
inductive LedPattern where | off | on | slow | fast
deriving DecidableEq, Repr

/-- Slot fault reasons (R57). -/
inductive FaultReason where | none | standbyPg | mainPg | identity
deriving DecidableEq, Repr

/-- Last verdict (4.1). -/
inductive Verdict where | none | valid | rejected
deriving DecidableEq, Repr

/-- What the SSQ holds for one slot (chapter 3). -/
structure SlotSeq where
  state : SlotState
  downCause : Option DownCause
  raw : Reading
  debounced : Reading
  debounce : Timer
  seq : Option SeqTimer
  /-- SBY_PG and MAIN_PG as last read (R44) -/
  sbyPg : Bool
  mainPg : Bool
  activity : ActivityState
  activityTimer : Timer
  abortHold : Bool
  shedHold : Bool
  arrived : Bool
  attLed : LedPattern
  pwrLed : LedPattern
  reason : FaultReason
  inserted : Stamp
  /-- copies: enable, request, locate, link state, last verdict, activity count, activity action RECLAIM -/
  enabled : Bool
  request : Nat
  locate : Bool
  linkState : LinkState
  verdict : Verdict
  activityCount : Nat
  reclaim : Bool
deriving DecidableEq, Repr

/-- The Slot Sequencer. -/
structure Ssq where
  slots : Vector SlotSeq 16
  /-- blink counter, 0–1,999 (R65) -/
  blink : Nat
  /-- settings copies, in the units of section 1.5 -/
  presenceDebounce : Nat
  standbyTimeout : Nat
  mainTimeout : Nat
  identityTimeout : Nat
  tUp : Nat
  tDown : Nat
deriving DecidableEq, Repr

/-! ## Inventory Unit -/

/-- Entry states (4.1). -/
inductive EntryState where | empty | pending | verifying | reading | valid | rejected
deriving DecidableEq, Repr

/-- Reject reasons (4.1). -/
inductive Reason where | none | version | kind | length | checksum | torn | noResponse
deriving DecidableEq, Repr

/-- Kinds of bay (section 1.13). -/
inductive Kind where | blade | psu | module
deriving DecidableEq, Repr

/-- A kind-specific profile (R70). -/
inductive Profile where
  | blade (p : BladeProfile)
  | psu (rated : Nat)
  | module (m : ModuleFigures)
deriving DecidableEq, Repr

/-- An inventory entry (4.1). -/
structure InvEntry where
  kind : Kind
  state : EntryState
  verdict : Verdict
  reason : Reason
  notes : BitVec 5
  /-- words 1–11 of the record: vendor and revision, model text, serial text -/
  identity : Vector Word 11
  active : Option Profile
  pending : Option Profile
  inserted : Stamp
  validated : Stamp
  attempts : Nat
deriving DecidableEq, Repr

/-- A verification in flight (R72). -/
structure Verification where
  length : Nat
  serial : Nat
  /-- the words taken so far, newest first; their number is the next word to read -/
  words : List Word
  sum : Word
deriving DecidableEq, Repr

/-- A module bay's presence and retry (R80, R82). -/
structure ModuleSense where
  raw : Bool
  present : Bool
  debounce : Timer
  retry : Timer
deriving DecidableEq, Repr

/-- A module read in progress (R81): `word0` is `none` until word 0 has been read. -/
structure ModuleRead where
  bay : ModuleBay
  word0 : Option Word
deriving DecidableEq, Repr

/-- What the reader puts on the Module Identity Line (R81, R83, R87). -/
inductive LineSymbol where
  | start
  | repeatedStart
  /-- the 7-bit address, for reading or for writing -/
  | address (a : BitVec 7) (read : Bool)
  | byte (b : Byte)
  /-- the ninth clock of a byte read, acknowledged or not -/
  | ack
  | nack
  | stop
  /-- a clock pulse on SCL with SDA released -/
  | clock
deriving DecidableEq, Repr

/-- The Inventory Unit (chapter 4). -/
structure Inv where
  entries : Vector InvEntry 26
  verifications : Vector (Option Verification) 16
  /-- the number given to each slot's latest verification (R72) -/
  serials : Vector Nat 16
  bays : Vector ModuleSense 10
  queue : List ModuleBay
  reading : Option ModuleRead
  changeCount : Word
  /-- clock pulses sent by the last Module Identity Line recovery, 0–9 (R87) -/
  recoveryPulses : Nat
  /-- what the reader has sent on the Module Identity Line since its last attempt, or line recovery, began (R81, R87) -/
  sent : List LineSymbol
deriving DecidableEq, Repr

/-! ## Supply Monitor -/

/-- Supply states (5.1). -/
inductive PsuState where | empty | identifying | rejected | starting | online | faulted | retired
deriving DecidableEq, Repr

/-- Supply fault reasons (R98). -/
inductive PsuReason where | none | start | pwrOk | alert
deriving DecidableEq, Repr

/-- Health bands (R95). -/
inductive Band where | healthy | degraded | suspect | retired
deriving DecidableEq, Repr

/-- Redundancy policies (R100). -/
inductive Policy where | unprotected | nPlusOne | nPlusN
deriving DecidableEq, Repr

/-- What the PSM holds for one bay (chapter 5). -/
structure Psu where
  state : PsuState
  reason : PsuReason
  rated : Nat
  faults : Nat
  band : Band
  capacity : Nat
  start : Timer
  restart : Timer
  decay : Timer
  /-- PWR_OK as last read (R89) -/
  pwrOk : Bool
  alertRaw : Bool
  alert : Bool
  alertTimer : Timer
  changed : Stamp
deriving DecidableEq, Repr

/-- The Supply Monitor. -/
structure Psm where
  bays : Vector Psu 6
  policy : Policy
  margin : Nat
  rawAvailable : Nat
  available : Nat
  /-- redundancy state LOST (R100) -/
  lost : Bool
deriving DecidableEq, Repr

/-! ## Power Allocator -/

/-- Allocation standing (3.1). -/
inductive Standing where | none | standby | admitted
deriving DecidableEq, Repr

/-- The set of throttle causes of a slot (6.6). -/
structure Causes where
  deficit : Bool
  lateReduce : Bool
  overdraw : Bool
  coolingLost : Bool
  forced : Bool
deriving DecidableEq, Repr

/-- Main floor, profile cap and effective cap of a slot with an active profile (6.1). -/
structure Plan where
  floor : Nat
  cap : Nat
  effCap : Nat
deriving DecidableEq, Repr

/-- An entry of the allocation table (6.1), with the PAL's copies for the slot. -/
structure Alloc where
  /-- the slot state as last reported (R104) -/
  state : SlotState
  standing : Standing
  allowance : Nat
  plan : Option Plan
  inUse : Nat
  request : Nat
  target : Nat
  grant : Nat
  inForce : Nat
  epoch : Nat
  unsettled : Bool
  deadline : Timer
  causes : Causes
  overdrawLevel : Option Nat
  shed : Bool
  sequence : Option Nat
  adopted : Bool
  /-- copies: class, forced throttle, activity action RECLAIM, SILENT -/
  cls : Nat
  forced : Bool
  reclaim : Bool
  silent : Bool
deriving DecidableEq, Repr

/-- Pass states (6.4). -/
inductive PassState where | idle | reduce | raise
deriving DecidableEq, Repr

/-- A place in the admission queue: the slot and the order number of its joining (R106). -/
structure QueuePlace where
  slot : Slot
  joined : Nat
deriving DecidableEq, Repr

/-- The Power Allocator (chapter 6). -/
structure Pal where
  slots : Vector Alloc 16
  queue : List QueuePlace
  /-- the joining numbers given so far (R106) -/
  joins : Nat
  pass : PassState
  passPending : Bool
  /-- the pass completes without RAISE: its computation is discarded (R121) -/
  discarded : Bool
  /-- slots and modules the computation in flight admitted (R112, R113) -/
  admits : List Slot
  moduleAdmits : List UplinkBay
  /-- image words the pass posts in the event under way; empty between events (the model's own) -/
  posting : List Nat
  /-- image words the pass in flight has posted and that are not yet performed (R123) -/
  posted : List Nat
  deficit : Bool
  available : Nat
  reservation : Nat
  factors : Vector Nat 4
  modules : Vector UplinkState 4
  /-- modules handed over for power-on and not yet reported (R109) -/
  handedOver : Vector Bool 4
  baseLoad : Nat
  defaultAllowance : Nat
  reduceTimeout : Nat
  mode : Mode
  changePending : Bool
  counter : Nat
  blockedHead : Option Slot
  load : Nat
  budget : Int
  headroom : Int
  stranded : Nat
deriving DecidableEq, Repr

/-! ## Cooling Controller -/

/-- Fan states (7.1). -/
inductive FanState where | absent | spinup | ok | failed
deriving DecidableEq, Repr

/-- What the CLC holds for one fan position. -/
structure Fan where
  state : FanState
  probe : Bool
  raw : Bool
  present : Bool
  presence : Timer
  tach : Nat
  rpm : Nat
  lowGates : Nat
  driven : Bool
  spin : Timer
  probeTimer : Timer
  drive : Nat
deriving DecidableEq, Repr

/-- What the CLC holds for one slot. -/
structure Thermal where
  member : Bool
  /-- the four readings in °C; `none` is the ABSENT marker -/
  readings : Vector (Option Int) 4
  /-- sensor count of the active profile; `none` without one -/
  sensors : Option Nat
  fresh : Timer
  demand : Option Nat
deriving DecidableEq, Repr

/-- What the CLC holds for one zone. -/
structure ZoneState where
  target : Nat
  applied : Nat
  factor : Nat
  critical : Bool
  modulePowered : Bool
  /-- copies of the zone settings (section 1.5) -/
  floorDuty : Nat
  fanWatts : Nat
  tLow : Int
  tHigh : Int
  dMin : Nat
  dMax : Nat
  tCrit : Int
  slew : Nat
  minRpm : Nat
deriving DecidableEq, Repr

/-- The Cooling Controller (chapter 7). -/
structure Clc where
  fans : Vector Fan 8
  slots : Vector Thermal 16
  zones : Vector ZoneState 4
  reservation : Nat
  moduleFloor : Nat
  /-- ticks of the gate and control period in progress, 0–999 (R130, R139) -/
  gate : Nat
deriving DecidableEq, Repr

/-! ## Uplink Controller -/

/-- Uplink fault reasons (R163). -/
inductive UplinkReason where | none | powerTimeout | modPg
deriving DecidableEq, Repr

/-- What the ULC holds for one uplink bay. -/
structure Uplink where
  state : UplinkState
  reason : UplinkReason
  figures : ModuleFigures
  flap : Nat
  held : Bool
  members : List Slot
  power : Timer
  link : Timer
  decay : Timer
  /-- LINK_UP and MOD_PG as last read -/
  linkUp : Bool
  modPg : Bool
deriving DecidableEq, Repr

/-- Attach states (R154). -/
inductive Attach where | detached | settling | attached
deriving DecidableEq, Repr

/-- A running settle timer: `detach` is its purpose (R154, R160). -/
structure Settle where
  detach : Bool
  left : Nat
deriving DecidableEq, Repr

/-- What the ULC holds for one slot. -/
structure Placement where
  attach : Attach
  uplink : Option UplinkBay
  settle : Option Settle
  /-- the weight counted for the slot as a member -/
  counted : Nat
  /-- the uplink weight of the active profile; `none` without one -/
  weight : Option Nat
  prefs : List UplinkBay
  inRun : Bool
deriving DecidableEq, Repr

/-- The Uplink Controller (chapter 8). -/
structure Ulc where
  bays : Vector Uplink 4
  slots : Vector Placement 16
  wait : List Slot
  /-- failback policy RETURN -/
  failback : Bool
  settleTime : Nat
  upDebounce : Nat
  downDebounce : Nat
  mode : Mode
deriving DecidableEq, Repr

/-! ## Mode and Event Unit -/

/-- The Mode and Event Unit (chapter 9). -/
structure Meu where
  requested : Mode
  actual : Mode
  changePending : Bool
  mainUpCount : Nat
  beyondCount : Nat
  poweringCount : Nat
  poweredCount : Nat
  quiescent : Bool
  clock : Clock
  sub : Nat
  load : Clock
  head : Nat
  writePos : Nat
  tail : Nat
  overflow : Nat
  /-- the group flags as stored (R15, R172) -/
  flags : BitVec 8
  enables : BitVec 8
  summaryCode : Nat
  /-- groups (0–7) of the records between the tail and the write position (R170) -/
  records : List (Fin 8)
  /-- groups of records whose tail value is posted and not performed, and of those whose tail is performed (R170) -/
  tailPosted : List (Fin 8)
  tailDone : List (Fin 8)
deriving DecidableEq, Repr

/-! ## Lines -/

/-- The chassis lines into the part, as they stand (00_scope, Signal summary). -/
structure Pins where
  pres : Vector Bool 16
  latch : Vector Bool 16
  sbyPg : Vector Bool 16
  mainPg : Vector Bool 16
  psuPres : Vector Bool 6
  pwrOk : Vector Bool 6
  alert : Vector Bool 6
  fanPres : Vector Bool 8
  /-- FAN_TACH, as the rising edges a second that the fans bring (notes/assumptions/6.md) -/
  fanTach : Vector Nat 8
  modPres : Vector Bool 4
  modPg : Vector Bool 4
  linkUp : Vector Bool 4
deriving DecidableEq, Repr

/-- The chassis lines out of the part, as driven or held (00_scope, Signal summary). -/
structure Outs where
  sbyEn : Vector Bool 16
  mainEn : Vector Bool 16
  throt : Vector Bool 16
  ledAtt : Vector Bool 16
  ledPwr : Vector Bool 16
  /-- XSEL: `none`, or the uplink it names -/
  xsel : Vector (Option UplinkBay) 16
  psuOn : Vector Bool 6
  fanPwm : Vector Nat 8
  modOn : Vector Bool 4
  /-- the one bay select that is on, if any (R81) -/
  baySelect : Option ModuleBay
  /-- SCL and SDA released high -/
  scl : Bool
  sda : Bool
  /-- ATTN_N asserted (low) -/
  attn : Bool
deriving DecidableEq, Repr

/-! ## The machine -/

/-- Where the part stands between a reset and normal service (R19, R37, R174–R180). -/
inductive Phase where
  /-- DRC start-up after power-on -/
  | startup
  /-- FORMAT running: `cursor` writes have been queued; `count` is the format count it writes -/
  | formatting (afterPin : Bool) (cursor : Nat) (count : Word)
  /-- the marker write of FORMAT has been performed -/
  | formatted (afterPin : Bool)
  /-- RESET_N asserted -/
  | resetHeld
  /-- reading header words 0 and 1 after the release -/
  | header (word0 : Option Word)
  /-- RECOVER: `cursor` words have been answered -/
  | recovering (cursor : Nat)
  | recovered
  /-- the identity reads after a FORMAT that follows a pin reset -/
  | identityReads
  /-- ports open -/
  | operating
deriving DecidableEq, Repr

/-- The state of the machine. -/
structure State where
  /-- commands waiting, first in first out -/
  pending : List Instr
  phase : Phase
  /-- set when a FORMAT ends, cleared by power-on reset (R17) -/
  formatLatch : Bool
  /-- the DRAM: word address and word, addresses rising, no entry equal to what an unlisted word reads as -/
  mem : List (Nat × Word)
  drc : Drc
  wra : Wra
  pmp : Pmp
  links : Vector Link 16
  ssq : Ssq
  inv : Inv
  psm : Psm
  pal : Pal
  clc : Clc
  ulc : Ulc
  meu : Meu
  pins : Pins
  outs : Outs
  /-- hand-overs of the event under way (the model's own) -/
  agenda : List Msg
  /-- the operations that wait for room in the write-back queue or for one offered before them, first in first out (R38) -/
  held : List Held
  /-- while the parts of one event are carried out one by one: those put off so far; `none` between events (the model's own) -/
  later : Option (List Held)
  /-- how many free values that are no function of operands have been drawn; no reset changes it (the model's own,
  notes/assumptions/37.md) -/
  freeDraws : Nat
deriving DecidableEq, Repr

/-- Reasons to stop with a fault. The manual describes none: every access of the 19-bit bus has a place in the DRAM and every
event acts or is disregarded by a rule. The type is closed and has no constructor, so no step of this model faults (safe). -/
inductive Fault where
deriving DecidableEq, Repr

/-- Reasons to refuse a command. -/
inductive Refusal where
  /-- A row of the opcode table without a meaning, refused by its mnemonic: raised by no arm of the finished dispatch; safe. -/
  | notModelled (mnemonic : String)
deriving DecidableEq, Repr

/-- The outcome of a command. -/
abbrev Result := Host.Outcome State Fault Refusal

/-! ## Values after power-on reset -/

/-- 2.4, R30: LEC 0, NORMAL, no frame, an empty buffer; data-out high (00_scope, Signal summary). -/
def Link.reset : Link :=
  { lec := 0, state := .normal, frame := none, buffer := [], reads := [], dataOut := 0xFF#8 }

/-- R67. -/
def SlotSeq.reset : SlotSeq :=
  { state := .empty, downCause := none, raw := .absent, debounced := .absent, debounce := none, seq := none,
    sbyPg := false, mainPg := false, activity := .stopped, activityTimer := none, abortHold := false, shedHold := false,
    arrived := false, attLed := .off, pwrLed := .off, reason := .none, inserted := Stamp.zero, enabled := true, request := 0,
    locate := false, linkState := .normal, verdict := .none, activityCount := 0, reclaim := false }

/-- R67, R65; the settings copies are the FORMAT defaults of section 1.5. -/
def Ssq.reset : Ssq :=
  { slots := Vector.replicate 16 SlotSeq.reset, blink := 0, presenceDebounce := 25, standbyTimeout := 50, mainTimeout := 100,
    identityTimeout := 60, tUp := 3, tDown := 2 }

/-- An EMPTY entry of a kind (R68). -/
def InvEntry.empty (k : Kind) : InvEntry :=
  { kind := k, state := .empty, verdict := .none, reason := .none, notes := 0#5, identity := Vector.replicate 11 0#32,
    active := none, pending := none, inserted := Stamp.zero, validated := Stamp.zero, attempts := 0 }

/-- The kind of each entry is fixed by its bay (4.1). -/
def kindOf (e : EntryNo) : Kind :=
  if e.val < 16 then .blade else if e.val < 22 then .psu else .module

/-- A module bay absent, its timers stopped (R87). -/
def ModuleSense.reset : ModuleSense := { raw := false, present := false, debounce := none, retry := none }

/-- R87. -/
def Inv.reset : Inv :=
  { entries := ⟨(allEntries.map fun e => InvEntry.empty (kindOf e)).toArray, rfl⟩
    verifications := Vector.replicate 16 none, serials := Vector.replicate 16 0,
    bays := Vector.replicate 10 ModuleSense.reset, queue := [], reading := none, changeCount := 0#32, recoveryPulses := 0,
    sent := [] }

/-- R102. -/
def Psu.reset : Psu :=
  { state := .empty, reason := .none, rated := 0, faults := 0, band := .healthy, capacity := 0, start := none, restart := none,
    decay := none, pwrOk := false, alertRaw := false, alert := false, alertTimer := none, changed := Stamp.zero }

/-- R102. -/
def Psm.reset : Psm :=
  { bays := Vector.replicate 6 Psu.reset, policy := .unprotected, margin := 100, rawAvailable := 0, available := 0,
    lost := false }

/-- The empty set of causes. -/
def Causes.empty : Causes := { deficit := false, lateReduce := false, overdraw := false, coolingLost := false, forced := false }

/-- R103, for a default standby allowance `a`; the settings copies are FORMAT's. -/
def Alloc.cleared (a : Nat) : Alloc :=
  { state := .empty, standing := .none, allowance := a, plan := none, inUse := 0, request := 0, target := 0, grant := 0,
    inForce := 0, epoch := 0, unsettled := false, deadline := none, causes := Causes.empty, overdrawLevel := none, shed := false,
    sequence := none, adopted := false, cls := 1, forced := false, reclaim := false, silent := false }

/-- R128. -/
def Pal.reset : Pal :=
  { slots := Vector.replicate 16 (Alloc.cleared 25), queue := [], joins := 0, pass := .idle, passPending := false,
    discarded := false, admits := [], moduleAdmits := [], posting := [], posted := [], deficit := false, available := 0,
    reservation := 0, factors := Vector.replicate 4 100, modules := Vector.replicate 4 .empty,
    handedOver := Vector.replicate 4 false, baseLoad := 100, defaultAllowance := 25, reduceTimeout := 20, mode := .configure,
    changePending := false, counter := 0, blockedHead := none, load := 0, budget := 0, headroom := 0, stranded := 0 }

/-- A fan position before its first reading (R145): ABSENT, nothing running. -/
def Fan.reset : Fan :=
  { state := .absent, probe := false, raw := false, present := false, presence := none, tach := 0, rpm := 0, lowGates := 0,
    driven := false, spin := none, probeTimer := none, drive := 0 }

/-- R134. -/
def Thermal.reset : Thermal :=
  { member := false, readings := Vector.replicate 4 none, sensors := none, fresh := none, demand := none }

/-- R145, section 1.5; a_z is 100 % (R21), and the cooling factor is 100 until it is first formed (R128). -/
def ZoneState.reset : ZoneState :=
  { target := 0, applied := 100, factor := 100, critical := false, modulePowered := false, floorDuty := 30, fanWatts := 40,
    tLow := 30, tHigh := 75, dMin := 30, dMax := 100, tCrit := 90, slew := 5, minRpm := 1200 }

/-- R145. -/
def Clc.reset : Clc :=
  { fans := Vector.replicate 8 Fan.reset, slots := Vector.replicate 16 Thermal.reset, zones := Vector.replicate 4 ZoneState.reset,
    reservation := 0, moduleFloor := 40, gate := 0 }

/-- No module figures (R147). -/
def ModuleFigures.zero : ModuleFigures := ⟨0, 0, 0⟩

/-- R164. -/
def Uplink.reset : Uplink :=
  { state := .empty, reason := .none, figures := ModuleFigures.zero, flap := 0, held := false, members := [], power := none,
    link := none, decay := none, linkUp := false, modPg := false }

/-- R164; the preference list is FORMAT's A, B, C, D (R20). -/
def Placement.reset : Placement :=
  { attach := .detached, uplink := none, settle := none, counted := 0, weight := none, prefs := [0, 1, 2, 3], inRun := false }

/-- R164. -/
def Ulc.reset : Ulc :=
  { bays := Vector.replicate 4 Uplink.reset, slots := Vector.replicate 16 Placement.reset, wait := [], failback := false,
    settleTime := 20, upDebounce := 50, downDebounce := 5, mode := .configure }

/-- 0 days 00:00:00. -/
def Clock.zero : Clock := ⟨0, 0, 0, 0⟩

/-- R173. -/
def Meu.reset : Meu :=
  { requested := .configure, actual := .configure, changePending := false, mainUpCount := 0, beyondCount := 0,
    poweringCount := 0, poweredCount := 0, quiescent := false, clock := Clock.zero, sub := 0, load := Clock.zero, head := 0,
    writePos := 0, tail := 0, overflow := 0, flags := 0#8, enables := 0xFF#8, summaryCode := 0, records := [],
    tailPosted := [], tailDone := [] }

/-- No line driven by the chassis: every bay empty (notes/assumptions/3.md). -/
def Pins.reset : Pins :=
  { pres := Vector.replicate 16 false, latch := Vector.replicate 16 false, sbyPg := Vector.replicate 16 false,
    mainPg := Vector.replicate 16 false, psuPres := Vector.replicate 6 false, pwrOk := Vector.replicate 6 false,
    alert := Vector.replicate 6 false, fanPres := Vector.replicate 8 false,
    fanTach := Vector.replicate 8 0, modPres := Vector.replicate 4 false,
    modPg := Vector.replicate 4 false, linkUp := Vector.replicate 4 false }

/-- R174: every output off, the fans at 100 %, ATTN_N deasserted; SCL and SDA released high (R87). -/
def Outs.off : Outs :=
  { sbyEn := Vector.replicate 16 false, mainEn := Vector.replicate 16 false, throt := Vector.replicate 16 false,
    ledAtt := Vector.replicate 16 false, ledPwr := Vector.replicate 16 false, xsel := Vector.replicate 16 none,
    psuOn := Vector.replicate 6 false, fanPwm := Vector.replicate 8 100, modOn := Vector.replicate 4 false, baySelect := none,
    scl := true, sda := true, attn := false }

/-- R35, R37, R34: start-up not done, debt and row counter 0, the round-robin after link 16. -/
def Drc.reset : Drc := { started := false, debt := 0, row := 0, lastLink := 15 }

/-- R40. -/
def Wra.reset : Wra := { queue := [], waiting := [], offered := [], forced := [], reads := [], readsWaiting := [] }

/-- No strobe, no access, READY off (R23). -/
def Pmp.reset : Pmp := { strobe := none, holding := none, current := false, ready := false, dataOut := none }

/-- The machine right after power-on reset (R174): the DRC start-up is running and nothing has been read. -/
def State.reset : State :=
  { pending := [], phase := .startup, formatLatch := false, mem := [], drc := Drc.reset, wra := Wra.reset, pmp := Pmp.reset,
    links := Vector.replicate 16 Link.reset, ssq := Ssq.reset, inv := Inv.reset, psm := Psm.reset, pal := Pal.reset,
    clc := Clc.reset, ulc := Ulc.reset, meu := Meu.reset, pins := Pins.reset, outs := Outs.off, agenda := [],
    held := [], later := none, freeDraws := 0 }

end Sys2Proof.Machine
end

