-- ==== Sys2Proof/Machine/Bits.lean ====
section
/-! DEFINITION. Bit fields, byte order and signed values (00_scope, Layouts: bit 0 is least significant; a word goes over a
link most significant byte first; section 1.6: temperatures are 16-bit two's complement). -/

namespace Sys2Proof.Machine

/-- The bits of a field of `width` bits whose lowest bit is `lo`. -/
def fieldMask (lo width : Nat) : Word := BitVec.ofNat 32 ((2 ^ width - 1) * 2 ^ lo)

/-- The value of a field of a word. -/
def getField (w : Word) (lo width : Nat) : Nat := w.toNat / 2 ^ lo % 2 ^ width

/-- A word that holds `v` in a field at `lo` and nothing else; `v` is cut to the word. -/
def putField (lo v : Nat) : Word := BitVec.ofNat 32 (v * 2 ^ lo)

/-- One bit as a word. -/
def putBit (lo : Nat) (b : Bool) : Word := if b then putField lo 1 else 0#32

/-- Bit `lo` of a word. -/
def getBit (w : Word) (lo : Nat) : Bool := getField w lo 1 == 1

/-- A merge (R8): the stored bits outside the mask, the data inside it. -/
def mergeBits (mask stored data : Word) : Word := (stored &&& ~~~mask) ||| (data &&& mask)

/-- The signed value of 16 bits (section 1.6). -/
def signed16 (n : Nat) : Int := if n < 32768 then (n : Int) else (n : Int) - 65536

/-- The 16 bits of a signed value. -/
def bits16 (t : Int) : Nat := (t % 65536).toNat

/-- The 32 bits of a signed value (section 1.13, blade budget and headroom). -/
def bits32 (t : Int) : Word := BitVec.ofInt 32 t

/-- The four bytes of a word, most significant first. -/
def wordBytes (w : Word) : List Byte :=
  [BitVec.ofNat 8 (getField w 24 8), BitVec.ofNat 8 (getField w 16 8), BitVec.ofNat 8 (getField w 8 8),
    BitVec.ofNat 8 (getField w 0 8)]

/-- The word of a list of bytes received, NEWEST FIRST: the oldest of four is the most significant. -/
def bytesWord : List Byte → Word
  | [] => 0#32
  | b :: older => bytesWord older <<< 8 ||| b.setWidth 32

/-- Bring a count into a range, at the nearer limit (R11, R70). -/
def clampNat (lo hi v : Nat) : Nat := if v < lo then lo else if hi < v then hi else v

/-- Bring a temperature into −40 to 150 °C (R11). -/
def clampTemp (t : Int) : Int := if t < -40 then -40 else if 150 < t then 150 else t

end Sys2Proof.Machine
end

