-- ==== Sys2Proof/Machine/Operands.lean ====
section
/-! DEFINITION. The values a write carries, as they are stored: storage ranges (R11), held codes (R12), the preference list
(R13), the event ring head (R171), the group-flags word (R15), the commit word (R16), and how the fields of the settings words
and of the S words lie (section 1.13). -/

namespace Sys2Proof.Machine

/-- What a field admits. -/
inductive FieldRule where
  /-- a count stored at the nearer limit of its range (R11) -/
  | range (lo hi : Nat)
  /-- a temperature, −40 to 150 °C; the ABSENT marker stands where `absent` holds (R11) -/
  | temperature (absent : Bool)
  /-- a code below `count`; any other value leaves the stored code (R12) -/
  | code (count : Nat)
  /-- stored as written -/
  | any
deriving DecidableEq, Repr

/-- A field of a word. -/
structure FieldSpec where
  lo : Nat
  width : Nat
  rule : FieldRule
deriving DecidableEq, Repr

/-- The ABSENT marker of a thermal reading (R11). -/
def absentMarker : Nat := 0x8000

/-- The value a field takes when `v` is written over the stored value `old`. -/
def FieldRule.store : FieldRule → Nat → Nat → Nat
  | .range lo hi, _, v => clampNat lo hi v
  | .temperature absent, _, v => if absent && v == absentMarker then v else bits16 (clampTemp (signed16 v))
  | .code count, old, v => if v < count then v else old
  | .any, _, v => v

/-- The value a field takes at RECOVER: as written, but an undefined code is the FORMAT default (R176). -/
def FieldRule.recover (default : Nat) : FieldRule → Nat → Nat
  | .code count, v => if v < count then v else default
  | r, v => r.store 0 v

/-- One field's contribution to the word stored (R6, R11, R12). -/
def FieldSpec.store (f : FieldSpec) (stored data : Word) : Word :=
  putField f.lo (f.rule.store (getField stored f.lo f.width) (getField data f.lo f.width))

/-- The word stored when `data` is written over `stored`: every field in its range, every bit of no field zero. -/
def storeFields (fs : List FieldSpec) (stored data : Word) : Word :=
  fs.foldl (fun acc f => acc ||| f.store stored data) 0#32

/-- The bits of a word that its fields cover. -/
def fieldsMask (fs : List FieldSpec) : Word :=
  fs.foldl (fun acc f => acc ||| fieldMask f.lo f.width) 0#32

/-- The four entries of a preference list word (section 1.13). -/
def prefEntries (w : Word) : List Nat := [getField w 0 3, getField w 8 3, getField w 16 3, getField w 24 3]

/-- A preference list cut at its first bad entry: NONE, above 4, or a repeat (R13). -/
def cutPrefs (seen : List Nat) : List Nat → List Nat
  | [] => []
  | e :: rest => if e == 0 || 4 < e || seen.contains e then [] else e :: cutPrefs (e :: seen) rest

/-- A cut preference list as a word. -/
def prefsWord : List Nat → Word
  | [a, b, c, d] => putField 0 a ||| putField 8 b ||| putField 16 c ||| putField 24 d
  | [a, b, c] => putField 0 a ||| putField 8 b ||| putField 16 c
  | [a, b] => putField 0 a ||| putField 8 b
  | [a] => putField 0 a
  | _ => 0#32

/-- The uplinks of a stored preference list word, in order. -/
def prefBays (w : Word) : List UplinkBay :=
  (cutPrefs [] (prefEntries w)).map fun e => ⟨(e - 1) % 4, Nat.mod_lt _ (by decide)⟩

/-- The head stored by a head write: taken modulo 64, and limited so that it does not pass the tail (R171). -/
def ringHeadStore (head tail written : Nat) : Nat :=
  let h := written % 64
  if (h + 64 - head % 64) % 64 ≤ (tail + 64 - head % 64) % 64 then h else tail

/-- Fields of the header and chassis settings words (section 1.13); commands, the marker, the head and unassigned words have
none here. -/
def headerFields : Nat → List FieldSpec
  | 0x02 => [⟨0, 8, .code 3⟩]
  | 0x04 => [⟨0, 8, .code 3⟩]
  | 0x05 => [⟨0, 16, .range 0 1000⟩]
  | 0x06 => [⟨0, 16, .range 0 500⟩]
  | 0x07 => [⟨0, 8, .range 5 100⟩]
  | 0x08 => [⟨0, 16, .range 0 2000⟩]
  | 0x09 => [⟨0, 8, .range 1 255⟩]
  | 0x0A => [⟨0, 8, .range 1 255⟩]
  | 0x0B => [⟨0, 8, .range 1 255⟩]
  | 0x0C => [⟨0, 8, .range 1 255⟩]
  | 0x0D => [⟨0, 4, .range 1 15⟩]
  | 0x0E => [⟨0, 4, .range 1 15⟩]
  | 0x0F => [⟨0, 8, .range 1 255⟩]
  | 0x10 => [⟨0, 16, .any⟩]
  | 0x11 => [⟨0, 5, .range 0 23⟩, ⟨8, 6, .range 0 59⟩, ⟨16, 6, .range 0 59⟩]
  | 0x13 => [⟨0, 8, .any⟩]
  | _ => []

/-- Fields of word `k` of a slot's settings; words 2, 6 and 7 have rules of their own. -/
def slotFields : Nat → List FieldSpec
  | 0 => [⟨0, 1, .any⟩]
  | 1 => [⟨0, 8, .code 3⟩]
  | 3 => [⟨0, 5, .any⟩]
  | 4 => [⟨0, 8, .code 2⟩]
  | 5 => [⟨0, 1, .any⟩, ⟨8, 1, .any⟩]
  | _ => []

/-- Fields of word `k` of a zone's settings. -/
def zoneFields : Nat → List FieldSpec
  | 0 => [⟨0, 8, .range 0 100⟩]
  | 1 => [⟨0, 8, .range 0 200⟩]
  | 2 => [⟨0, 16, .temperature false⟩, ⟨16, 16, .temperature false⟩]
  | 3 => [⟨0, 8, .range 0 100⟩]
  | 4 => [⟨0, 8, .range 0 100⟩]
  | 5 => [⟨0, 16, .temperature false⟩]
  | 6 => [⟨0, 4, .range 1 10⟩]
  | 7 => [⟨0, 13, .range 0 7650⟩]
  | _ => []

/-- Fields of the uplink settings words, image offsets 0x00E0–0x00E4. -/
def uplinkFields : Nat → List FieldSpec
  | 0xE0 => [⟨0, 8, .code 2⟩]
  | 0xE1 => [⟨0, 8, .range 1 255⟩]
  | 0xE2 => [⟨0, 8, .range 10 255⟩]
  | 0xE3 => [⟨0, 8, .range 1 25⟩]
  | 0xE4 => [⟨0, 8, .range 0 100⟩]
  | _ => []

/-- S fields of word `k` of a slot record, words 0–14 (section 1.13). -/
def recordFields : Nat → List FieldSpec
  | 0 => [⟨0, 16, .range 0 2000⟩]
  | 1 => [⟨0, 16, .range 0 2000⟩, ⟨16, 8, .any⟩]
  | 2 => [⟨0, 16, .temperature true⟩, ⟨16, 16, .temperature true⟩]
  | 3 => [⟨0, 16, .temperature true⟩, ⟨16, 16, .temperature true⟩]
  | _ => [⟨0, 32, .any⟩]

/-- The power class of a stored code; STANDARD is FORMAT's default (section 1.5, R176). -/
def classOf (n : Nat) : Nat := if n < 3 then n else 1

/-- The commit field of word 15 (R16). -/
def commitMask : Word := 0x000000FF#32

/-- The group-flags word after a processor write: a flag written as 0 is cleared, bits 8–31 are zero (R15). -/
def flagsCleared (stored data : Word) : Word := stored &&& data &&& 0x000000FF#32

/-- The commit word after an acknowledgement (R16): the count rises modulo 256; the commit field becomes 0 if it still holds
the length, or if a clearing has joined the entry. -/
def acknowledge (length increase : Nat) (clear : Bool) (stored : Word) : Word :=
  let commit := if clear || getField stored 0 8 == length then 0 else getField stored 0 8
  mergeBits 0x00FF00FF#32 stored (putField 0 commit ||| putField 16 ((getField stored 16 8 + increase) % 256))

/-- A thermal reading field as the CLC takes it (R134). -/
def readingOf (v : Nat) : Option Int := if v == absentMarker then none else some (signed16 v)

/-- The word of a zone's settings that holds a curve setting (section 1.13). -/
def curveIndex : CurveWord → Nat
  | .tLowHigh => 2
  | .dMin => 3
  | .dMax => 4

/-- The word of a slot record that holds a pair of thermal readings (section 1.13). -/
def thermalIndex : ThermalWord → Nat
  | .first => 2
  | .second => 3

end Sys2Proof.Machine
end

