-- ==== Sys2Proof/Machine/ImageMap.lean ====
section
/-! DEFINITION. The static image map (chapter 1): what each image offset holds, where a slot window leads, the assigned words
in order, and the values FORMAT writes. -/

namespace Sys2Proof.Machine

/-! ## Offsets -/

def settingsOff (i : Slot) (k : Nat) : Nat := 0x40 + i.val * 8 + k
def zoneOff (z : Zone) (k : Nat) : Nat := 0xC0 + z.val * 8 + k
def psuOff (b : PsuBay) (k : Nat) : Nat := 0x140 + b.val * 8 + k
def fanOff (p : FanPos) (k : Nat) : Nat := 0x170 + p.val * 4 + k
def zoneRecordOff (z : Zone) (k : Nat) : Nat := 0x190 + z.val * 4 + k
def uplinkOff (b : UplinkBay) (k : Nat) : Nat := 0x1A0 + b.val * 8 + k
def recordOff (i : Slot) (k : Nat) : Nat := 0x200 + i.val * 64 + k
def fruOff (i : Slot) (k : Nat) : Nat := 0x600 + i.val * 64 + k
def entryOff (e : EntryNo) (k : Nat) : Nat := 0xA00 + e.val * 32 + k
def ringOff (r k : Nat) : Nat := 0xE00 + r * 4 + k

/-- The group-flags word, the ring tail, and the words of section 1.1 beside them. -/
def flagsOff : Nat := 0x1D0
def summaryCodeOff : Nat := 0x1D1
def tailOff : Nat := 0x1D2
def overflowOff : Nat := 0x1D3

/-! ## What a word holds (R1, R2) -/

/-- A command word of the settings regions (section 1.4). -/
inductive Command where
  | abort
  | clockLoad
  | faultClear (slot : Slot)
  | linkClear (slot : Slot)
  | psuClear (bay : PsuBay)
  | uplinkClear (bay : UplinkBay)
deriving DecidableEq, Repr

/-- The kind of an image word: who owns it and how a write to it is stored. -/
inductive WordKind where
  | unassigned
  /-- P fields -/
  | settings (fields : List FieldSpec)
  | prefs
  | ringHead
  | command (c : Command)
  | marker
  | flags
  /-- D fields alone -/
  | device
  /-- S fields of a slot -/
  | blade (slot : Slot) (fields : List FieldSpec)
  /-- word 15 of a slot record -/
  | commit (slot : Slot)
deriving DecidableEq, Repr

def slotIx (n : Nat) : Slot := ⟨n % 16, Nat.mod_lt _ (by decide)⟩
def zoneIx (n : Nat) : Zone := ⟨n % 4, Nat.mod_lt _ (by decide)⟩
def uplinkIx (n : Nat) : UplinkBay := ⟨n % 4, Nat.mod_lt _ (by decide)⟩
def psuIx (n : Nat) : PsuBay := ⟨n % 6, Nat.mod_lt _ (by decide)⟩
def fanIx (n : Nat) : FanPos := ⟨n % 8, Nat.mod_lt _ (by decide)⟩
def entryIx (n : Nat) : EntryNo := ⟨n % 26, Nat.mod_lt _ (by decide)⟩

/-- Words 0x0000–0x003F. -/
def headerKind (off : Nat) : WordKind :=
  if off == 0 then .marker
  else if off == 1 then .device
  else if off == 0x03 then .command .abort
  else if off == 0x12 then .command .clockLoad
  else if off == 0x14 then .ringHead
  else match headerFields off with
    | [] => .unassigned
    | fs => .settings fs

/-- Word `k` of slot `i`'s settings. -/
def slotKind (i : Slot) (k : Nat) : WordKind :=
  if k == 2 then .prefs
  else if k == 6 then .command (.faultClear i)
  else if k == 7 then .command (.linkClear i)
  else .settings (slotFields k)

/-- Words 0x00E0–0x00FF. -/
def uplinkKind (off : Nat) : WordKind :=
  if off < 0xE5 then .settings (uplinkFields off)
  else if off < 0xEB then .command (.psuClear (psuIx (off - 0xE5)))
  else if off < 0xEF then .command (.uplinkClear (uplinkIx (off - 0xEB)))
  else .unassigned

/-- Word `k` of slot `i`'s record (R2, R4). -/
def recordKind (i : Slot) (k : Nat) : WordKind :=
  if k < 15 then .blade i (recordFields k)
  else if k == 15 then .commit i
  else if k < 48 then .device
  else .unassigned

/-- The image map: what the word at an image offset holds (section 1.1, R1, R2). -/
def kindAt (off : Nat) : WordKind :=
  if off < 0x40 then headerKind off
  else if off < 0xC0 then slotKind (slotIx ((off - 0x40) / 8)) ((off - 0x40) % 8)
  else if off < 0xE0 then .settings (zoneFields ((off - 0xC0) % 8))
  else if off < 0x100 then uplinkKind off
  else if off < 0x1D0 then .device
  else if off == 0x1D0 then .flags
  else if off < 0x1D4 then .device
  else if off < 0x200 then .unassigned
  else if off < 0x600 then recordKind (slotIx ((off - 0x200) / 64)) ((off - 0x200) % 64)
  else if off < 0xA00 then .blade (slotIx ((off - 0x600) / 64)) [⟨0, 32, .any⟩]
  else if off < 0xD40 then (if (off - 0xA00) % 32 < 21 then .device else .unassigned)
  else if off < 0xE00 then .unassigned
  else if off < 0xF00 then .device
  else .unassigned

/-- Is the word assigned (R1)? -/
def assigned (off : Nat) : Bool := kindAt off != .unassigned

/-! ## Slot windows (R3, R4) -/

/-- Where a window offset leads. -/
inductive WindowPlace where
  | record (k : Nat)
  | fru (k : Nat)
  | mirror (k : Nat)
  | unmapped
deriving DecidableEq, Repr

/-- The place of a window offset, taken modulo 1,024 (R3). -/
def windowPlace (off : Nat) : WindowPlace :=
  let o := off % 1024
  if o < 0x40 then .record o
  else if o < 0x80 then .fru (o - 0x40)
  else if o < 0xC0 then .mirror (o - 0x80)
  else .unmapped

/-- The image offset a window offset of slot `i` reaches; `none` where it is unmapped (R3). -/
def windowOff (i : Slot) (off : Nat) : Option Nat :=
  match windowPlace off with
  | .record k => some (recordOff i k)
  | .fru k => some (fruOff i k)
  | .mirror k => some (0x100 + k)
  | .unmapped => none

/-! ## FORMAT (R19–R21) -/

/-- Words of one region, each at `base + k`. -/
def offsetsFrom (base n : Nat) : List Nat := (List.range n).map (base + ·)

/-- Every assigned word in ascending offset order. -/
def assignedOffsets : List Nat := (List.range 0xF00).filter assigned

/-- Words 1–14 of a slot record's default: request, report, readings ABSENT, notes (R21). -/
def recordDefault (k : Nat) : Word := if k == 2 || k == 3 then 0x80008000#32 else 0#32

/-- The kind code of an entry (section 1.13). -/
def kindCode (e : EntryNo) : Nat :=
  match kindOf e with
  | .blade => 1
  | .psu => 2
  | .module => 3

/-- Defaults of words 0x0002–0x0014 (section 1.5). -/
def headerDefault : Nat → Nat
  | 0x05 => 100
  | 0x06 => 100
  | 0x07 => 25
  | 0x08 => 1200
  | 0x09 => 25
  | 0x0A => 50
  | 0x0B => 100
  | 0x0C => 60
  | 0x0D => 3
  | 0x0E => 2
  | 0x0F => 20
  | 0x13 => 0xFF
  | _ => 0

/-- Defaults of the words of a slot's settings. -/
def slotDefault : Nat → Nat
  | 0 => 1
  | 1 => 1
  | 2 => 0x04030201
  | _ => 0

/-- Defaults of the words of a zone's settings. -/
def zoneDefault : Nat → Nat
  | 0 => 30
  | 1 => 40
  | 2 => 30 + 75 * 65536
  | 3 => 30
  | 4 => 100
  | 5 => 90
  | 6 => 5
  | 7 => 1200
  | _ => 0

/-- Defaults of the uplink settings. -/
def uplinkDefault : Nat → Nat
  | 0xE1 => 20
  | 0xE2 => 50
  | 0xE3 => 5
  | 0xE4 => 40
  | _ => 0

/-- The value FORMAT writes to an assigned word other than words 0 and 1 (R20, R21). -/
def formatValue (off : Nat) : Word :=
  if off < 0x40 then BitVec.ofNat 32 (headerDefault off)
  else if off < 0xC0 then BitVec.ofNat 32 (slotDefault ((off - 0x40) % 8))
  else if off < 0xE0 then BitVec.ofNat 32 (zoneDefault ((off - 0xC0) % 8))
  else if off < 0x100 then BitVec.ofNat 32 (uplinkDefault off)
  else if 0x10E ≤ off && off < 0x112 then 100#32
  else if 0x190 ≤ off && off < 0x1A0 && off % 4 == 1 then 100#32
  else if 0x200 ≤ off && off < 0x600 then recordDefault ((off - 0x200) % 64)
  else if 0xA00 ≤ off && off < 0xD40 && (off - 0xA00) % 32 == 0 then
    BitVec.ofNat 32 (kindCode (entryIx ((off - 0xA00) / 32)))
  else 0#32

/-- The writes of a FORMAT in order: 0 to the marker word, every other assigned word, the marker (R18, R19). -/
def formatWrites (count : Word) : List Update :=
  { off := 0, kind := .whole 0#32 } ::
    ((assignedOffsets.drop 1).map fun o =>
      { off := o, kind := .whole (if o == 1 then count else formatValue o) : Update }) ++
    [{ off := 0, kind := .whole Config.marker }]

end Sys2Proof.Machine
end

