-- ==== Sys2Proof/Machine/Ops.lean ====
section
/-! DEFINITION. The named operations the blocks share: reading and writing the DRAM, posting to the write-back and read-back
agent (R38, R39), updates of one slot's, bay's, zone's or position's part of the state, and the hand-overs of an event. -/

namespace Sys2Proof.Machine

/-! ## DRAM -/

/-- What a word that is not listed reads as (notes/assumptions/4.md). -/
def unlisted : Word := 0#32

/-- The word at a word address. -/
def memRead : List (Nat × Word) → Nat → Word
  | [], _ => unlisted
  | (k, v) :: rest, a => if k = a then v else memRead rest a

/-- The DRAM with one word written, in canonical form. -/
def memWrite : List (Nat × Word) → Nat → Word → List (Nat × Word)
  | [], a, w => if w = unlisted then [] else [(a, w)]
  | (k, v) :: rest, a, w =>
    if a < k then (if w = unlisted then (k, v) :: rest else (a, w) :: (k, v) :: rest)
    else if a = k then (if w = unlisted then rest else (a, w) :: rest)
    else (k, v) :: memWrite rest a w

/-- The canonical form: addresses strictly rising, no entry equal to what an unlisted word reads as. -/
def memWf : List (Nat × Word) → Bool
  | [] => true
  | [(_, v)] => v != unlisted
  | (k, v) :: (k', v') :: rest => v != unlisted && k < k' && memWf ((k', v') :: rest)

/-- The DRAM word at an image offset. -/
def State.image (s : State) (off : Nat) : Word := memRead s.mem (Config.imageBase + off)

/-- Write a DRAM word. -/
def State.storeWord (s : State) (a : Nat) (w : Word) : State := { s with mem := memWrite s.mem a w }

/-- Write the DRAM word at an image offset. -/
def State.storeImage (s : State) (off : Nat) (w : Word) : State := s.storeWord (Config.imageBase + off) w

/-! ## The write-back queue (R38, R39) -/

/-- The blade entry of a slot. -/
def slotEntry (i : Slot) : EntryNo := ⟨i.val, by omega⟩

/-- An entry after an update for its word has joined it (R38). -/
def UpdateKind.join : UpdateKind → UpdateKind → UpdateKind
  | _, .whole v => .whole v
  | .whole v, .fields m x => .whole (mergeBits m v x)
  | .whole v, .flags f => .whole (v ||| f)
  | .whole v, .ack l n c => .whole (acknowledge l n c v)
  | .fields m v, .fields m' v' => .fields (m ||| m') (mergeBits m' v v')
  | .fields _ _, .ack l n _ => .ack l n true
  | .fields m v, .flags f => .fields (m ||| f) (v ||| f)
  | .flags f, .flags f' => .flags (f ||| f')
  | .flags f, .fields m v => .fields (m ||| f) (mergeBits m f v)
  | .flags _, .ack l n c => .ack l n c
  | .ack _ n c, .ack l' n' c' => .ack l' (n + n') (c || c')
  | .ack l n _, .fields _ _ => .ack l n true
  | .ack l n c, .flags _ => .ack l n c

/-- The word an entry leaves when it is performed over the stored word (R8, R15, R16, R39). -/
def UpdateKind.perform : UpdateKind → Word → Word
  | .whole v, _ => v
  | .fields m v, stored => mergeBits m stored v
  | .flags f, stored => stored ||| f
  | .ack l n c, stored => acknowledge l n c stored

/-- Does a list of updates hold one for this word? -/
def holdsWord (q : List Update) (off : Nat) : Bool := q.any fun e => e.off == off

/-- The queue with an update joined to the entry for its word. -/
def joinQueue (q : List Update) (u : Update) : List Update :=
  q.map fun e => if e.off == u.off then { e with kind := e.kind.join u.kind } else e

/-! ### What waits behind what (R38, R68, R98, R101, R143, R163; notes/assumptions/13.md) -/

/-- The bits of its word that an update changes. -/
def UpdateKind.mask : UpdateKind → Word
  | .whole _ => BitVec.allOnes 32
  | .fields m _ => m
  | .flags f => f
  | .ack _ _ _ => 0x00FF00FF#32

/-- The scopes of the fields of word `k` of slot `i`'s record: 16 is the summary word, of the PAL, the SSQ and the SAL. -/
def recordScopes (i : Slot) (k : Nat) : List (Word × Scope) :=
  match k with
  | 15 | 21 => [(BitVec.allOnes 32, .entry (slotEntry i))]
  | 16 =>
    [(fieldMask 0 11 ||| fieldMask 15 8 ||| fieldMask 23 5 ||| fieldMask 31 1, .pal),
      (fieldMask 11 4 ||| fieldMask 30 1, .slot i), (fieldMask 28 2, .link i)]
  | 18 => [(BitVec.allOnes 32, .link i)]
  | 20 => [(BitVec.allOnes 32, .ulc)]
  | 25 => [(fieldMask 0 2, .slot i), (fieldMask 2 1, .pal), (fieldMask 3 1, .entry (slotEntry i))]
  | _ => [(BitVec.allOnes 32, .slot i)]

/-- The scope of a word outside the slot records that has one. -/
def wordScope (off : Nat) : Scope :=
  if off = 0x105 ∨ off = 0x106 then .available
  else if 0x107 ≤ off ∧ off ≤ 0x10B then .pal
  else if 0x116 ≤ off ∧ off ≤ 0x119 then .ulc
  else if 0x140 ≤ off ∧ off < 0x170 then .psu (psuIx ((off - 0x140) / 8))
  else if 0x170 ≤ off ∧ off < 0x190 then .fan (fanIx ((off - 0x170) / 4))
  else if 0x190 ≤ off ∧ off < 0x1A0 then .zone (zoneIx ((off - 0x190) / 4))
  else if 0x1A0 ≤ off ∧ off < 0x1D0 then .ulc
  else if off = 0x1D0 ∨ 0xE00 ≤ off ∧ off < 0xF00 then .ring
  else if 0x600 ≤ off ∧ off < 0xA00 then .slot (slotIx ((off - 0x600) / 64))
  else if 0xA00 ≤ off ∧ off < 0xD40 then .entry (entryIx ((off - 0xA00) / 32))
  else .word off

/-- The scopes of an update, by the fields it changes. -/
def Update.scopes (u : Update) : List Scope :=
  if 0x200 ≤ u.off ∧ u.off < 0x600 then
    ((recordScopes (slotIx ((u.off - 0x200) / 64)) ((u.off - 0x200) % 64)).filter fun p => u.kind.mask &&& p.1 != 0#32).map (·.2)
  else [wordScope u.off]

/-- Is a scope one whose later publications a waiting one holds behind it: a fan's or a zone's record (R143), the ULC's (R163)? -/
def Scope.ordered : Scope → Bool
  | .fan _ | .zone _ | .ulc => true
  | _ => false

/-- Does a waiting update hold this later one behind it: one of the same word (R38), of one record of the CLC (R143), or of the ULC
(R163)? -/
def Update.precedes (v u : Update) : Bool :=
  v.off == u.off || v.scopes.any fun c => c.ordered && u.scopes.contains c

/-- Is an image offset a word of the CLC or the ULC, which do not wait for the write-back queue (R143, R163)? -/
def unhinderedWord (off : Nat) : Bool :=
  off == 0x10C || (0x10E ≤ off && off < 0x11A) ||
    (match wordScope off with
      | .fan _ | .zone _ | .ulc => true
      | _ => false) ||
    (0x200 ≤ off && off < 0x600 && (off - 0x200) % 64 == 20)

/-- Is an image offset a word whose fields no block holds as its own: of the event ring, of the group flags, or of a blade's S fields
(sections 1.3 and 1.13)? -/
def unheldWord (off : Nat) : Bool :=
  off == 0x1D0 || (0xE00 ≤ off && off < 0xF00) || (0x600 ≤ off && off < 0xA00) ||
    (0x200 ≤ off && off < 0x600 && (off - 0x200) % 64 < 15)

/-- Must an operation wait until this update of it has been taken into the queue (R38)? The CLC and the ULC go on at once (R143, R163),
and so does a block whose update carries no value of its own: the words of an event record and the flag sets (R170), and the clearing of
the S fields at a removal (R22), which wait by themselves. -/
def Update.binds (u : Update) : Bool :=
  !(unhinderedWord u.off || unheldWord u.off) &&
    (match u.kind with
      | .fields _ _ => !(0x200 ≤ u.off && u.off < 0x600 && (u.off - 0x200) % 64 == 15)
      | _ => true)

/-- Does an update wait behind one that waits already? -/
def Wra.behind (w : Wra) (u : Update) : Bool := w.waiting.any fun v => v.precedes u

/-- An update joins the entry for its word, unless it must wait behind an earlier one (R38, R143, R163). -/
def Wra.joinOr (w : Wra) (u : Update) (other : Wra) : Wra :=
  if holdsWord w.queue u.off && !w.behind u then { w with queue := joinQueue w.queue u } else other

/-- The update waits, behind those that wait already. -/
def Wra.putLast (w : Wra) (u : Update) : Wra := { w with waiting := w.waiting ++ [u] }

/-- Offer an update: it joins the entry for its word, takes a new entry at the tail, or waits (R38). -/
def Wra.post (w : Wra) (u : Update) : Wra :=
  w.joinOr u
    (if !holdsWord w.queue u.off && w.waiting.isEmpty && w.queue.length < Config.queueSize then
      { w with queue := w.queue ++ [u] }
    else w.putLast u)

/-- A waiting update, once those ahead of it have been looked at: it joins at once where its word has gained an entry (R38). -/
def Wra.rejoin (w : Wra) (u : Update) : Wra := w.joinOr u (w.putLast u)

/-- The first waiting update is taken into a freed entry, and the others join or go on waiting, in their order (R38). -/
def Wra.takeWaiting (w : Wra) : Wra :=
  match w.waiting with
  | [] => w
  | u :: rest =>
    if w.queue.length < Config.queueSize then
      rest.foldl Wra.rejoin { w with queue := w.queue ++ [u], waiting := [] }
    else w

/-- Post a read-back request (R39). -/
def Wra.request (w : Wra) (r : ReadRequest) : Wra :=
  if w.readsWaiting.isEmpty && w.reads.length < Config.queueSize then { w with reads := w.reads ++ [r] }
  else { w with readsWaiting := w.readsWaiting ++ [r] }

/-- The first waiting request enters the list once it has room (R39). -/
def Wra.takeRequest (w : Wra) : Wra :=
  match w.readsWaiting with
  | [] => w
  | r :: rest =>
    if w.reads.length < Config.queueSize then { w with reads := w.reads ++ [r], readsWaiting := rest } else w

/-- The update that waits here, if it is one. -/
def Held.update? : Held → Option Update
  | .update u => some u
  | _ => none

/-- The updates that wait for room, in the order in which they were offered (R38). -/
def State.waitingUpdates (s : State) : List Update := s.wra.waiting ++ s.held.filterMap Held.update?

/-- Every waiting update whose word has an entry waits behind an earlier one (R38, R143, R163). -/
def State.waitsWell (s : State) : Prop :=
  ∀ (k : Nat) (h : k < s.waitingUpdates.length), holdsWord s.wra.queue s.waitingUpdates[k].off = true →
    (s.waitingUpdates.take k).any (fun v => v.precedes s.waitingUpdates[k]) = true

/-- Post an update of an event. Where operations wait that were offered before it, it takes no new entry ahead of them, and waits behind
them unless it joins the entry of its word (R38). -/
def State.postUpdate (s : State) (u : Update) : State :=
  if s.held.isEmpty then { s with wra := s.wra.post u }
  else if holdsWord s.wra.queue u.off && !s.waitingUpdates.any (fun v => v.precedes u) then
    { s with wra := { s.wra with queue := joinQueue s.wra.queue u } }
  else { s with held := s.held ++ [.update u] }

/-- Is an update for this word still on its way to the DRAM? -/
def State.onItsWay (s : State) (off : Nat) : Bool :=
  holdsWord s.wra.queue off || holdsWord s.waitingUpdates off || holdsWord s.wra.offered off

/-- Post an update in the event under way. It reaches the queue when the event has ended, behind the field publications of
the event (R75: the entry before the acknowledgement). -/
def State.offer (s : State) (u : Update) : State :=
  { s with wra := { s.wra with offered := s.wra.offered ++ [u] } }

/-- Publish the fields under a mask in the event under way, whether or not they change (R31, R32, R101, R115, R169). -/
def State.force (s : State) (off : Nat) (mask : Word) : State :=
  { s with wra := { s.wra with forced := s.wra.forced ++ [(off, mask)] } }

/-- Publish a whole word in the event under way. -/
def State.forceWord (s : State) (off : Nat) : State := s.force off (BitVec.allOnes 32)

/-- Post a read-back request in the event under way. -/
def State.requestRead (s : State) (r : ReadRequest) : State := { s with wra := s.wra.request r }

/-! ## Parts of the state -/

def State.updLink (s : State) (i : Slot) (f : Link → Link) : State :=
  { s with links := s.links.set i (f s.links[i]) }

def State.updSlot (s : State) (i : Slot) (f : SlotSeq → SlotSeq) : State :=
  { s with ssq := { s.ssq with slots := s.ssq.slots.set i (f s.ssq.slots[i]) } }

def State.updEntry (s : State) (e : EntryNo) (f : InvEntry → InvEntry) : State :=
  { s with inv := { s.inv with entries := s.inv.entries.set e (f s.inv.entries[e]) } }

def State.updBay (s : State) (b : ModuleBay) (f : ModuleSense → ModuleSense) : State :=
  { s with inv := { s.inv with bays := s.inv.bays.set b (f s.inv.bays[b]) } }

def State.setVerification (s : State) (i : Slot) (v : Option Verification) : State :=
  { s with inv := { s.inv with verifications := s.inv.verifications.set i v } }

def State.updPsu (s : State) (b : PsuBay) (f : Psu → Psu) : State :=
  { s with psm := { s.psm with bays := s.psm.bays.set b (f s.psm.bays[b]) } }

def State.updAlloc (s : State) (i : Slot) (f : Alloc → Alloc) : State :=
  { s with pal := { s.pal with slots := s.pal.slots.set i (f s.pal.slots[i]) } }

def State.updFan (s : State) (p : FanPos) (f : Fan → Fan) : State :=
  { s with clc := { s.clc with fans := s.clc.fans.set p (f s.clc.fans[p]) } }

def State.updThermal (s : State) (i : Slot) (f : Thermal → Thermal) : State :=
  { s with clc := { s.clc with slots := s.clc.slots.set i (f s.clc.slots[i]) } }

def State.updZone (s : State) (z : Zone) (f : ZoneState → ZoneState) : State :=
  { s with clc := { s.clc with zones := s.clc.zones.set z (f s.clc.zones[z]) } }

def State.updUplink (s : State) (b : UplinkBay) (f : Uplink → Uplink) : State :=
  { s with ulc := { s.ulc with bays := s.ulc.bays.set b (f s.ulc.bays[b]) } }

def State.updPlacement (s : State) (i : Slot) (f : Placement → Placement) : State :=
  { s with ulc := { s.ulc with slots := s.ulc.slots.set i (f s.ulc.slots[i]) } }

def State.updMeu (s : State) (f : Meu → Meu) : State := { s with meu := f s.meu }

def State.updPal (s : State) (f : Pal → Pal) : State := { s with pal := f s.pal }

def State.updPins (s : State) (f : Pins → Pins) : State := { s with pins := f s.pins }

/-- Do one thing for each member of a list, in order. -/
def forEach {α : Type} (l : List α) (f : α → State → State) (s : State) : State := l.foldl (fun s a => f a s) s

/-- Do one thing if a condition holds. -/
def onlyIf (c : Bool) (f : State → State) (s : State) : State := if c then f s else s

/-! ## Hand-overs -/

/-- Hand something over to another block, in the same event and after the hand-overs already made (R43). -/
def State.push (s : State) (m : Msg) : State := { s with agenda := s.agenda ++ [m] }

/-- The entry of a module bay: 17–26. -/
def bayEntry (b : ModuleBay) : EntryNo := ⟨16 + b.val, by omega⟩

/-! ## Operations that wait (R38, R68, R98, R101; notes/assumptions/13.md) -/

/-- The scope of an event of a line, a timer, the reader or the ring. -/
def eventScope (v : Inv) : Instr → Option Scope
  | .slotRawReadingChange i _ _ | .presenceDebounceExpiry i | .sbyPgGood i | .sbyPgLost i | .mainPgGood i | .mainPgLost i
  | .standbyTimeout i | .standbyStepDelayExpiry i | .identityTimeout i | .mainTimeout i | .mainStepDelayExpiry i
  | .mainDownDelayExpiry i | .standbyDownDelayExpiry i | .activityTimerExpiry i => some (.slot i)
  | .modulePresenceChange b _ | .modulePresenceDebounceExpiry b | .retryTimerExpiry b => some (.entry (bayEntry b))
  | .readerAttemptStart => v.queue.head?.map fun b => .entry (bayEntry b)
  | .readerWord0Read _ | .readerRecordRead _ | .readerNack | .readerSclTimeout =>
    v.reading.map fun r => .entry (bayEntry r.bay)
  | .pwrOkGood b | .pwrOkLost b | .startTimerExpiry b | .restartTimerExpiry b | .alertRawChange b _ | .alertDebounceExpiry b
  | .faultDecayExpiry b => some (.psu b)
  | .reduceDeadline _ => some .pal
  | .eventRecordPerformed => some (.word 0x1D2)
  | _ => none

/-- The scope that acts on a hand-over. There is none for the CLC and the ULC, whose changes do not wait (R143, R163), nor where the
hand-over is one of each slot. -/
def Msg.scope : Msg → Option Scope
  | .ssqAdmit i | .ssqShed i | .ssqDetachDone i | .ssqVerdict i _ | .ssqAbortAt i | .ssqModeAt i _ _ => some (.slot i)
  | .invState i _ => some (.entry (slotEntry i))
  | .psmPresence b _ | .psmVerdict b _ => some (.psu b)
  | .palState _ _ | .palProfile _ _ | .palSilent _ _ | .palCooling _ _ | .palReservation _ | .palModule _ _ | .palAvailable _
  | .palMode _ _ | .palAbort => some .pal
  | .meuReport => some (.word 0x100)
  | .ssqMode _ _ | .ssqAbort | .ulcPlace _ | .ulcDetach _ | .ulcDrop _ | .ulcEmpty _ | .ulcWeight _ _ | .ulcMode _ | .ulcPowerOn _
  | .ulcPresence _ _ | .ulcVerdict _ _ | .clcMember _ _ | .clcSensors _ _ | .clcEmpty _ | .clcModule _ _ => none

/-- The scope that an operation belongs to. -/
def Held.scope (v : Inv) : Held → Option Scope
  | .handOver m => m.scope
  | .update _ => none
  | .ssqRequest i _ | .ssqEnable i _ | .ssqActivityCount i _ | .ssqFaultClear i | .ssqActivity i | .ssqLocate i _ => some (.slot i)
  | .salError i | .salGood i | .salClear i => some (.link i)
  | .invCommit i _ | .invFru i | .invAnswer i _ _ => some (.entry (slotEntry i))
  | .psmClear b => some (.psu b)
  | .psmSetting _ _ => some .available
  | .palRequest _ _ | .palDrawn _ _ _ | .palClass _ _ | .palAction _ _ | .palForced _ _ | .palBaseLoad _ | .palAllowance _
  | .palTurn => some .pal
  | .meuMode _ => some (.word 0x100)
  | .meuSecond | .meuLoad _ => some (.word 0x104)
  | .meuFlags _ | .meuEnables _ => some (.word 0x1D1)
  | .meuOverflow _ => some (.word 0x1D3)
  | .event c => eventScope v c

/-- The scopes whose waiting updates hold a scope up: an entry's publication holds up its slot or bay (R68), a removal's clearing of the
S fields the slot (R22, R38), and a supply's or available power's the supply, since the PSM goes on to its next event once its
publications are queued (R101). -/
def Scope.awaits : Scope → List Scope
  | .slot i => [.slot i]
  | .entry e => [.entry e]
  | .psu b => [.psu b, .available]
  | .available => [.available]
  | _ => []

/-- Is a scope held up: does an operation of it wait, or an update that it awaits? -/
def State.holds (s : State) (c : Scope) : Bool :=
  (c.awaits.any fun d => s.waitingUpdates.any fun u => u.scopes.contains d) || s.held.any fun m => m.scope s.inv == some c

/-- Is an operation held back by what was given to its block earlier? -/
def State.holdsBack (s : State) (m : Held) : Bool := (m.scope s.inv).any s.holds

/-- An operation waits, behind those that wait already. -/
def State.hold (s : State) (m : Held) : State := { s with held := s.held ++ [m] }

/-- An operation is carried out, or waits while its block is held up; where the parts of the event are carried out one by one, it is put
off (R38). -/
def whenFree (m : Held) (f : State → State) (s : State) : State :=
  match m.scope s.inv with
  | none => f s
  | some c =>
    match s.later with
    | some l => { s with later := some (l ++ [m]) }
    | none => if s.holds c then s.hold m else f s

/-! ## Places of the chassis -/

/-- The zone of a slot (R108): slots 1–4 in zone 1, and so on. -/
def zoneOf (i : Slot) : Zone := zoneIx (i.val / 4)

/-- The zone of a fan position. -/
def fanZone (p : FanPos) : Zone := zoneIx (p.val / 2)

/-- The other fan of the zone. -/
def fanPartner (p : FanPos) : FanPos := if p.val % 2 == 0 then fanIx (p.val + 1) else fanIx (p.val - 1)

/-- The zone of an uplink bay: A in zone 1, and so on (chapter 7). -/
def uplinkZone (b : UplinkBay) : Zone := b

/-- A module bay as a PSU bay or an uplink bay. -/
def baySide (b : ModuleBay) : PsuBay ⊕ UplinkBay := if b.val < 6 then .inl (psuIx b.val) else .inr (uplinkIx (b.val - 6))

/-- The module bay of a PSU bay, and of an uplink bay. -/
def psuModule (b : PsuBay) : ModuleBay := ⟨b.val, by omega⟩
def uplinkModule (b : UplinkBay) : ModuleBay := ⟨6 + b.val, by omega⟩

/-- The time the blocks take for timestamps: the clock's days and seconds of day (R169). -/
def Clock.stamp (c : Clock) : Stamp := ⟨c.days, c.hours * 3600 + c.minutes * 60 + c.seconds⟩

/-- The chassis clock's time now. -/
def State.now (s : State) : Stamp := s.meu.clock.stamp

/-- Are the ports open and the lines acted on (R175, R180)? -/
def State.live (s : State) : Bool := s.phase == .operating

end Sys2Proof.Machine
end

