-- ==== Sys2Proof/Machine/Events.lean ====
section
/-! DEFINITION. Events, the event ring and the chassis clock (chapter 9, sections 9.3 and 9.4). -/

namespace Sys2Proof.Machine

/-- Event causes (9.4). -/
inductive Cause where
  | fanFailed | fanRestored | thermalCritical | coolingLost
  | psuOnline | psuFault | psuDegraded | psuRetired | redundancyLost | redundancyMet
  | deficitEntered | deficitCleared | admissionBlocked | slotShed
  | slotInserted | slotRemoved | slotFault | slotSilent
  | uplinkUp | uplinkDown | uplinkHeld | slotParked
  | identityValid | identityRejected
  | linkWarning | linkRestricted | linkIsolated
  | modeChanged | imageFormatted | imageRecovered
deriving DecidableEq, Repr

/-- The code of a cause: 16 × group number + its place in the group (9.4). -/
def Cause.code : Cause → Nat
  | .fanFailed => 0x11
  | .fanRestored => 0x12
  | .thermalCritical => 0x13
  | .coolingLost => 0x14
  | .psuOnline => 0x21
  | .psuFault => 0x22
  | .psuDegraded => 0x23
  | .psuRetired => 0x24
  | .redundancyLost => 0x25
  | .redundancyMet => 0x26
  | .deficitEntered => 0x31
  | .deficitCleared => 0x32
  | .admissionBlocked => 0x33
  | .slotShed => 0x34
  | .slotInserted => 0x41
  | .slotRemoved => 0x42
  | .slotFault => 0x43
  | .slotSilent => 0x44
  | .uplinkUp => 0x51
  | .uplinkDown => 0x52
  | .uplinkHeld => 0x53
  | .slotParked => 0x54
  | .identityValid => 0x61
  | .identityRejected => 0x62
  | .linkWarning => 0x71
  | .linkRestricted => 0x72
  | .linkIsolated => 0x73
  | .modeChanged => 0x81
  | .imageFormatted => 0x82
  | .imageRecovered => 0x83

/-- The group of a cause, counted from 0: COOLING 0 to SYSTEM 7 (R15, 9.4). -/
def Cause.group (c : Cause) : Fin 8 := ⟨(c.code / 16 + 7) % 8, Nat.mod_lt _ (by decide)⟩

/-- Event subjects (section 1.13). -/
inductive Subject where
  | chassis
  | slot (i : Slot)
  | psu (b : PsuBay)
  | fan (p : FanPos)
  | zone (z : Zone)
  | uplink (b : UplinkBay)
deriving DecidableEq, Repr

/-- The subject's kind in bits 8–11 and number in bits 16–20 of record word 0 (section 1.13); the chassis has no number. -/
def Subject.bits : Subject → Word
  | .chassis => 0#32
  | .slot i => putField 8 1 ||| putField 16 (i.val + 1)
  | .psu b => putField 8 2 ||| putField 16 (b.val + 1)
  | .fan p => putField 8 3 ||| putField 16 (p.val + 1)
  | .zone z => putField 8 4 ||| putField 16 (z.val + 1)
  | .uplink b => putField 8 5 ||| putField 16 (b.val + 1)

/-- The flag of a group in the group-flags word (R15). -/
def groupFlag (g : Fin 8) : Word := putField g.val 1

/-- The four words of a record (section 1.13). -/
def recordWords (c : Cause) (subject : Subject) (t : Stamp) (detail : Word) : List Word :=
  [putField 0 c.code ||| subject.bits, putField 0 t.days, putField 0 t.secs, detail]

/-- The number of a group, 1 for COOLING to 8 for SYSTEM. -/
def systemGroup : Fin 8 := 7

/-- An event of a group finds the ring full: the overflow is counted, and a flag set is posted for the group and for SYSTEM (R170). -/
def countOverflow (g : Fin 8) (s : State) : State :=
  (s.updMeu fun m => { m with overflow := min 65535 (m.overflow + 1) }).offer
    { off := flagsOff, kind := .flags (groupFlag g ||| groupFlag systemGroup) }

/-- A block raises an event (R170): a record at the write position, or at a full ring an overflow. -/
def raise (c : Cause) (subject : Subject) (detail : Word) (s : State) : State :=
  let next := (s.meu.writePos + 1) % 64
  if next = s.meu.head then whenFree (.meuOverflow c.group) (countOverflow c.group) s
  else
    let r := s.meu.writePos
    let posts := (recordWords c subject s.now detail).zipIdx.map fun (w, k) =>
      ({ off := ringOff r k, kind := .whole w } : Update)
    forEach posts (fun u s => s.offer u)
      (s.updMeu fun m => { m with writePos := next, records := m.records ++ [c.group] })

/-- Have all four words of the record at the tail been performed (R170)? -/
def recordPerformed (s : State) : Bool :=
  !s.meu.records.isEmpty && [0, 1, 2, 3].all fun k => !s.onItsWay (ringOff s.meu.tail k)

/-- The WRA reports the record at the tail performed: the tail advances past it, and its new value is posted (R170). -/
def takeRecordPerformed (s : State) : State :=
  match s.meu.records with
  | [] => s
  | g :: rest =>
    if recordPerformed s then
      s.updMeu fun m => { m with tail := (m.tail + 1) % 64, records := rest, tailPosted := m.tailPosted ++ [g] }
    else s

/-- The tail value `w` has been performed: the events it covers are reported, those up to it (R170). -/
def Meu.reportTail (w : Word) (m : Meu) : Meu :=
  let n := m.tailPosted.length - (m.tail + 64 - w.toNat % 64) % 64
  { m with tailDone := m.tailDone ++ m.tailPosted.take n, tailPosted := m.tailPosted.drop n }

/-- The WRA reports a tail value performed: a flag set is posted for the group of every event
that value covers, an update that joined a queued tail entry being reported with it (R170). -/
def takeTailPerformed (s : State) : State :=
  forEach s.meu.tailDone (fun g s => s.offer { off := flagsOff, kind := .flags (groupFlag g) })
    (s.updMeu fun m => { m with tailDone := [] })

/-- The chassis clock one second later, wrapping after 65,535 days 23:59:59 (R169). -/
def Clock.advance (c : Clock) : Clock :=
  if c.seconds < 59 then { c with seconds := c.seconds + 1 }
  else if c.minutes < 59 then { c with seconds := 0, minutes := c.minutes + 1 }
  else if c.hours < 23 then { c with seconds := 0, minutes := 0, hours := c.hours + 1 }
  else { days := (c.days + 1) % 65536, hours := 0, minutes := 0, seconds := 0 }

/-- The image words of the clock in the chassis summary: days; hours, minutes and seconds (section 1.13). -/
def daysOff : Nat := 0x103
def timeOff : Nat := 0x104

/-- The clock takes a time: days, and hours, minutes and seconds, are published as one update each (R169). -/
def setClock (c : Clock) (s : State) : State :=
  ((s.updMeu fun m => { m with clock := c }).forceWord daysOff).forceWord timeOff

/-- The clock advances one second (R169). -/
def advanceClock (s : State) : State := setClock s.meu.clock.advance s

/-- The sub-second count reaches 1,000 and returns to 0, and the clock advances (R169). -/
def clockSecond (s : State) : State := whenFree .meuSecond advanceClock (s.updMeu fun m => { m with sub := 0 })

/-- The clock is set to the load copies as a command finds them, and the sub-second count to 0 (R169). -/
def loadClock (c : Clock) (s : State) : State := setClock c (s.updMeu fun m => { m with sub := 0 })

/-- The clock load command (R169). -/
def clockLoad (s : State) : State := whenFree (.meuLoad s.meu.load) (loadClock s.meu.load) s

end Sys2Proof.Machine
end

