-- ==== Sys2Proof/Machine/Flags.lean ====
section
/-! DEFINITION. The flags and status values the part forms: group flags and the summary code (R15, R172), the link state of an
LEC (R31), the health band of a fault count (R95), the quiescent substatus (R167), and the sets of slot and uplink states that
the other blocks ask about. -/

namespace Sys2Proof.Machine

/-- The group flags of a stored group-flags word (R15). -/
def flagsOf (w : Word) : BitVec 8 := w.setWidth 8

/-- The MEU takes the group flags as stored (R15, R172). -/
def takeFlags (w : Word) (s : State) : State := s.updMeu fun m => { m with flags := flagsOf w }

/-- The MEU takes the group enables as stored (R172). -/
def takeEnables (w : Word) (s : State) : State := s.updMeu fun m => { m with enables := flagsOf w }

/-- Bit g of a set of groups. -/
def hasGroup (f : BitVec 8) (g : Fin 8) : Bool := f.getLsbD g.val

/-- The groups in their order of priority. -/
def allGroups : List (Fin 8) := [0, 1, 2, 3, 4, 5, 6, 7]

/-- ATTN_N is asserted while a group has both its enable and its flag set (R172). -/
def attention (flags enables : BitVec 8) : Bool := flags &&& enables != 0#8

/-- The summary code: the number of the first such group, or NONE (R172). -/
def summaryCodeOf (flags enables : BitVec 8) : Nat :=
  match allGroups.find? (hasGroup (flags &&& enables)) with
  | some g => g.val + 1
  | none => 0

/-- The link state of an LEC (R31). -/
def linkStateOf (lec : Nat) : LinkState :=
  if lec < 128 then .normal else if lec < 255 then .restricted else .isolated

/-- The health band of a fault count (R95). -/
def bandOf (count : Nat) : Band :=
  if count < 96 then .healthy else if count < 128 then .degraded else if count < 255 then .suspect else .retired

/-- The allocation standing of a slot state (3.1). -/
def standingOf : SlotState → Standing
  | .standbyUp | .identifying | .ready | .admitWait | .standbyDown => .standby
  | .mainUp | .run | .detach | .mainDown => .admitted
  | .empty | .detecting | .held | .fault => .none

/-- MAIN_EN is on in these states (R44). -/
def mainOn : SlotState → Bool
  | .mainUp | .run | .detach => true
  | _ => false

/-- SBY_EN is on in these states (R44). -/
def standbyOn : SlotState → Bool
  | .standbyUp | .identifying | .ready | .admitWait | .mainUp | .run | .detach | .mainDown => true
  | _ => false

/-- The states beyond READY (R43), in which the main floor is counted (R78). -/
def beyondReady : SlotState → Bool
  | .mainUp | .run | .detach | .mainDown => true
  | _ => false

/-- The member set of a zone (R135). -/
def isMember : SlotState → Bool
  | .mainUp | .run | .detach => true
  | _ => false

/-- The states in which the activity timer runs (R63). -/
def isTimed : SlotState → Bool
  | .ready | .admitWait | .mainUp | .run => true
  | _ => false

/-- A module is powered in these states (8.1). -/
def isPowered : UplinkState → Bool
  | .powering | .linkDown | .up | .held => true
  | _ => false

/-- PSU_ON is on in these states (R89). -/
def psuIsOn : PsuState → Bool
  | .starting | .online => true
  | _ => false

/-- Is the set of throttle causes non-empty (R127)? -/
def Causes.nonEmpty (c : Causes) : Bool := c.deficit || c.lateReduce || c.overdraw || c.coolingLost || c.forced

/-- The power LED of a slot state (R65). -/
def powerLed : SlotState → LedPattern
  | .empty | .detecting | .held | .fault => .off
  | .identifying | .ready | .admitWait => .slow
  | .standbyUp | .mainUp | .detach | .mainDown | .standbyDown => .fast
  | .run => .on

/-- The attention LED of a slot (R66). -/
def attentionLed (q : SlotSeq) : LedPattern :=
  if q.state == .fault then .on
  else if q.locate then .fast
  else if q.activity == .silent || q.linkState != .normal || q.verdict == .rejected then .slow
  else .off

/-- Is an LED showing this pattern on at this blink counter (R65)? -/
def LedPattern.lit : LedPattern → Nat → Bool
  | .off, _ => false
  | .on, _ => true
  | .slow, n => n < 1000
  | .fast, n => n % 500 < 125

/-- The number of slots, or of uplink bays, in a set of states. -/
def countSlots (s : State) (p : SlotState → Bool) : Nat := (allSlots.filter fun i => p s.ssq.slots[i].state).length
def countUplinks (s : State) (p : UplinkState → Bool) : Nat := (allUplinks.filter fun b => p s.ulc.bays[b].state).length

/-- The MEU's four counts (R166, R167), as the reports of the SSQ and the ULC leave them. -/
def recount (s : State) : State :=
  s.updMeu fun m =>
    { m with
      mainUpCount := countSlots s (· == .mainUp), beyondCount := countSlots s beyondReady,
      poweringCount := countUplinks s (· == .powering), poweredCount := countUplinks s isPowered }

/-- The quiescent substatus (R167). -/
def formQuiescent (s : State) : State :=
  s.updMeu fun m => { m with quiescent := m.actual == .quiesce && m.beyondCount == 0 && m.poweredCount == 0 }

end Sys2Proof.Machine
end

