-- ==== Sys2Proof/Machine/Modes.lean ====
section
/-! DEFINITION. The operating modes (9.1). -/

namespace Sys2Proof.Machine

def Mode.code : Mode → Nat
  | .configure => 0
  | .operate => 1
  | .quiesce => 2

/-- The mode of a stored code; CONFIGURE is FORMAT's default (R165, R176). -/
def modeOf (n : Nat) : Mode := if n = 1 then .operate else if n = 2 then .quiesce else .configure

/-- A change of the actual mode: handed to the SSQ, the PAL and the ULC, and raised (R165). -/
def setActual (m : Mode) (s : State) : State :=
  let old := s.meu.actual
  let s := formQuiescent (s.updMeu fun u => { u with actual := m })
  let s := ((s.push (.ssqMode old m)).push (.palMode m s.meu.changePending)).push (.ulcMode m)
  raise .modeChanged .chassis (putField 0 m.code ||| putField 8 old.code) s

/-- A change of the change-pending marker, handed to the PAL (R165). -/
def setPending (p : Bool) (s : State) : State :=
  (s.updMeu fun m => { m with changePending := p }).push (.palMode s.meu.actual p)

/-- A pending change to CONFIGURE completes at the first report that leaves both counts at 0 (R166). -/
def completePending (s : State) : State :=
  if s.meu.changePending && s.meu.mainUpCount == 0 && s.meu.poweringCount == 0 then
    setActual .configure (setPending false s)
  else s

/-- A report of the SSQ or the ULC that bears on the MEU's counts (R166, R167). -/
def takeReport (s : State) : State := formQuiescent (completePending (recount s))

/-- The mode request as stored, taken against the actual mode (R165). -/
def takeModeRequest (m : Mode) (s : State) : State :=
  let s := s.updMeu fun u => { u with requested := m }
  match s.meu.actual, s.meu.changePending, m with
  | .operate, true, .configure => s
  | .operate, true, .operate => setPending false s
  | .operate, true, .quiesce => setActual .quiesce (setPending false s)
  | .operate, false, .configure =>
    if s.meu.mainUpCount == 0 && s.meu.poweringCount == 0 then setActual .configure s else setPending true s
  | old, _, new => if new = old then s else setActual new s

end Sys2Proof.Machine
end

