-- ==== Sys2Proof/Machine/Inventory.lean ====
section
/-! DEFINITION. The Inventory Unit (chapter 4): checking a record, the life of a blade entry, and the Module Identity Reader. -/

namespace Sys2Proof.Machine

def Reason.code : Reason → Nat
  | .none => 0
  | .version => 1
  | .kind => 2
  | .length => 3
  | .checksum => 4
  | .torn => 5
  | .noResponse => 6

/-! ## Checking a record (4.2) -/

/-- The kind code a record must carry (R69). -/
def Kind.code : Kind → Nat
  | .blade => 1
  | .psu => 2
  | .module => 3

/-- The checks of word 0, in order; `committed` is a blade's committed length (R69). -/
def checkWord0 (k : Kind) (committed : Option Nat) (w : Word) : Option Reason :=
  let n := getField w 0 8
  if getField w 16 8 ≠ 1 then some .version
  else if getField w 8 8 ≠ k.code then some .kind
  else if n < 8 || 63 < n then some .length
  else match committed with
    | some m => if m = n then none else some .length
    | none => none

/-- The sum of all words is zero modulo 2^32 (R69). -/
def checksumOk (words : List Word) : Bool := words.foldl (· + ·) 0#32 == 0#32

/-- Word `k` of a record, zero at or beyond the checksum word (R70). -/
def recordWord (words : List Word) (k : Nat) : Word := if k + 1 < words.length then words.getD k 0#32 else 0#32

/-- A mark set where the clamp changed a field (R70). -/
def adjusted (mark raw stored : Nat) : BitVec 5 := if raw = stored then 0#5 else BitVec.ofNat 5 (2 ^ (mark - 1))

/-- Words 12 and 13 of a blade's record as a clamped profile, with the adjustment notes (R70). -/
def bladeProfile (w12 w13 : Word) : BladeProfile × BitVec 5 :=
  let standby := clampNat 5 100 (getField w12 0 16)
  let main := clampNat 50 800 (getField w12 16 16)
  let cap := clampNat main 1200 (getField w13 0 16)
  let sensors := clampNat 0 4 (getField w13 16 8)
  let weight := clampNat 1 4 (getField w13 24 8)
  (⟨standby, main, cap, sensors, weight⟩,
    adjusted 1 (getField w12 0 16) standby ||| adjusted 2 (getField w12 16 16) main ||| adjusted 3 (getField w13 0 16) cap |||
      adjusted 4 (getField w13 16 8) sensors ||| adjusted 5 (getField w13 24 8) weight)

/-- Word 12 of a supply's record (R70). -/
def psuProfile (w12 : Word) : Nat × BitVec 5 :=
  let rated := clampNat 200 3000 (getField w12 0 16)
  (rated, adjusted 1 (getField w12 0 16) rated)

/-- Word 12 of a module's record (R70). -/
def moduleProfile (w12 : Word) : ModuleFigures × BitVec 5 :=
  let capacity := clampNat 4 32 (getField w12 0 8)
  let members := clampNat 1 16 (getField w12 8 8)
  let power := clampNat 20 300 (getField w12 16 16)
  (⟨capacity, members, power⟩,
    adjusted 1 (getField w12 0 8) capacity ||| adjusted 2 (getField w12 8 8) members ||| adjusted 3 (getField w12 16 16) power)

/-- The profile and adjustment notes of a record found VALID (R70). -/
def profileOf (k : Kind) (words : List Word) : Profile × BitVec 5 :=
  let w12 := recordWord words 12
  match k with
  | .blade => let p := bladeProfile w12 (recordWord words 13); (.blade p.1, p.2)
  | .psu => let p := psuProfile w12; (.psu p.1, p.2)
  | .module => let p := moduleProfile w12; (.module p.1, p.2)

/-- The identity of a record: its words 1–11 (R70). -/
def identityOf (words : List Word) : Vector Word 11 :=
  ⟨([1, 2, 3, 4, 5, 6, 7, 8, 9, 10, 11].map (recordWord words)).toArray, rfl⟩

/-- How a record's examination ends. -/
inductive Ruling where
  | accepted (words : List Word)
  /-- with the length the event reports (R75) -/
  | rejected (reason : Reason) (length : Nat)
deriving DecidableEq, Repr

/-- Is the verdict VALID? -/
def Ruling.isAccepted : Ruling → Bool
  | .accepted _ => true
  | .rejected _ _ => false

/-! ## Entries -/

/-- The blade profile of an entry's active profile. -/
def InvEntry.blade (e : InvEntry) : Option BladeProfile :=
  match e.active with
  | some (.blade p) => some p
  | _ => none

/-- The module figures of an entry's active profile, all zero without one (R177). -/
def InvEntry.figures (e : InvEntry) : ModuleFigures :=
  match e.active with
  | some (.module m) => m
  | _ => ModuleFigures.zero

/-- The rated output of an entry's active profile (R177). -/
def InvEntry.rated (e : InvEntry) : Nat :=
  match e.active with
  | some (.psu r) => r
  | _ => 0

/-- A slot's entry. -/
def State.bladeEntry (s : State) (i : Slot) : InvEntry := s.inv.entries[slotEntry i]

/-- A slot's active profile, or its absence, is handed to the PAL, the ULC and the CLC (R76, R77, R79). -/
def handProfile (i : Slot) (s : State) : State :=
  let p := (s.bladeEntry i).blade
  ((s.push (.palProfile i p)).push (.ulcWeight i (p.map (·.weight)))).push (.clcSensors i (p.map (·.sensors)))

/-- An entry that becomes EMPTY keeps only its kind (R68). -/
def emptyEntry (e : EntryNo) (s : State) : State := s.updEntry e fun x => InvEntry.empty x.kind

/-- The slot's entry becomes EMPTY at its removal, and a verification in flight is abandoned (R74, R78). -/
def inventoryRemoval (i : Slot) (s : State) : State := emptyEntry (slotEntry i) (s.setVerification i none)

/-- The entry becomes PENDING at the entry to STANDBY_UP (R76). -/
def inventoryPending (i : Slot) (s : State) : State :=
  let arrival := s.ssq.slots[i].inserted
  handProfile i
    ((s.setVerification i none).updEntry (slotEntry i) fun x =>
      { x with
        state := .pending, identity := Vector.replicate 11 0#32, active := none, pending := none, notes := 0#5,
        validated := Stamp.zero, inserted := if x.state = .empty then arrival else x.inserted })

/-- The change count one on (R86). -/
def countChange (s : State) : State := { s with inv := { s.inv with changeCount := s.inv.changeCount + 1#32 } }

/-- A pending profile is promoted at the entry to READY (R79). A promotion raises the change count (R86): with the other changes of the
event where the active profile differs (`countChanges`), and here where it is the same one again. -/
def inventoryPromote (i : Slot) (s : State) : State :=
  match (s.bladeEntry i).pending with
  | none => s
  | some p =>
    handProfile i (onlyIf ((s.bladeEntry i).active == some p) countChange
      (s.updEntry (slotEntry i) fun x => { x with active := some p, pending := none }))

/-- The SSQ reports a state in which the entry changes (R43, R59). -/
def takeInvState (i : Slot) (st : SlotState) (s : State) : State :=
  match st with
  | .standbyUp => inventoryPending i s
  | .ready => inventoryPromote i s
  | .empty => inventoryRemoval i s
  | _ => s

/-! ## Blade verification (4.3, 4.4) -/

/-- What a verdict leaves in an entry, and whether the active profile was handed a new value (R77, R78). `counted`: the
slot's main floor is counted. -/
def InvEntry.ruled (e : InvEntry) (counted : Bool) (now : Stamp) : Ruling → InvEntry
  | .rejected r _ =>
    { e with verdict := .rejected, reason := r, state := if e.state = .valid then .valid else .rejected }
  | .accepted words =>
    let p := profileOf e.kind words
    let e' := { e with
      state := .valid, verdict := .valid, reason := .none, identity := identityOf words, notes := p.2, validated := now }
    if e.state == EntryState.valid && counted then { e' with pending := some p.1 } else { e' with active := some p.1, pending := none }

/-- IDENTITY_VALID or IDENTITY_REJECTED, with its detail (R75). -/
def raiseIdentity (subject : Subject) (notes : BitVec 5) (pended : Bool) (r : Ruling) (s : State) : State :=
  match r with
  | .accepted _ => raise .identityValid subject (putField 0 notes.toNat ||| putBit 8 pended) s
  | .rejected reason length => raise .identityRejected subject (putField 0 reason.code ||| putField 8 length) s

/-- A verdict for a blade, `length` being the length acknowledged: the entry, the acknowledgement, the report to the SSQ and
the event, in that order (R75). -/
def bladeVerdict (i : Slot) (length : Nat) (r : Ruling) (s : State) : State :=
  let before := s.bladeEntry i
  let counted := beyondReady s.ssq.slots[i].state
  let pended : Bool := before.state == EntryState.valid && counted
  let after := before.ruled counted s.now r
  let s := (s.setVerification i none).updEntry (slotEntry i) fun _ => after
  let s := onlyIf (r.isAccepted && !pended) (handProfile i) s
  let s := s.offer { off := recordOff i 15, kind := .ack length 1 false }
  let s := s.push (.ssqVerdict i r.isAccepted)
  raiseIdentity (.slot i) after.notes pended r s

/-- A commit: the watch notice of a slot's commit word, with the length stored (R71, R74). -/
def takeCommit (i : Slot) (n : Nat) (s : State) : State :=
  let e := s.bladeEntry i
  if n == 0 || e.state == .empty then s
  else if n < 8 || 63 < n then bladeVerdict i n (.rejected .length n) s
  else
    let serial := s.inv.serials[i] + 1
    let s := { s with inv := { s.inv with serials := s.inv.serials.set i serial } }
    let s := s.setVerification i (some { length := n, serial := serial, words := [], sum := 0#32 })
    let s := s.updEntry (slotEntry i) fun x =>
      { x with state := if x.state == .pending || x.state == .rejected then .verifying else x.state }
    s.requestRead (.verify i serial 0)

/-- The read-back answer of a verification's next word (R72). An answer that carries another verification's number is
disregarded. -/
def takeVerifyAnswer (i : Slot) (serial : Nat) (w : Word) (s : State) : State :=
  match s.inv.verifications[i] with
  | none => s
  | some v =>
    if v.serial ≠ serial then s
    else
      let bad := if v.words.isEmpty then checkWord0 .blade (some v.length) w else none
      match bad with
      | some r => bladeVerdict i v.length (.rejected r (getField w 0 8)) s
      | none =>
        let words := w :: v.words
        let sum := v.sum + w
        if words.length < v.length then
          (s.setVerification i (some { v with words := words, sum := sum })).requestRead (.verify i serial words.length)
        else if sum = 0#32 then bladeVerdict i v.length (.accepted words.reverse) s
        else bladeVerdict i v.length (.rejected .checksum v.length) s

/-- The watch notice of a FRU word: a verification in flight ends with TORN (R73). -/
def takeFruWrite (i : Slot) (s : State) : State :=
  match s.inv.verifications[i] with
  | none => s
  | some v => bladeVerdict i v.length (.rejected .torn v.length) s

/-! ## Module bays (4.5) -/

/-- Symbols go out on the Module Identity Line (R81). -/
def State.send (s : State) (l : List LineSymbol) : State := { s with inv := { s.inv with sent := s.inv.sent ++ l } }

/-- The address of the identity EEPROM (R81). -/
def eepromAddress : BitVec 7 := 0x50#7

/-- The start of a read at a byte offset: START, the address for writing, the offset, a repeated START, and the address for
reading (R81). -/
def readFrom (offset : Byte) : List LineSymbol :=
  [.start, .address eepromAddress false, .byte offset, .repeatedStart, .address eepromAddress true]

/-- The reader's answers to `n` bytes read: each acknowledged but the last, and then a STOP (R81). -/
def readEnd (n : Nat) : List LineSymbol := List.replicate (n - 1) .ack ++ [.nack, .stop]

/-- The event subject of a module bay. -/
def baySubject (b : ModuleBay) : Subject :=
  match baySide b with
  | .inl p => .psu p
  | .inr u => .uplink u

/-- The presence line of a module bay. -/
def Pins.bayPres (p : Pins) (b : ModuleBay) : Bool :=
  match baySide b with
  | .inl k => p.psuPres[k]
  | .inr u => p.modPres[u]

/-- A raw reading of a module's presence line (R80). -/
def readModulePresence (b : ModuleBay) (level : Bool) (s : State) : State :=
  if s.inv.bays[b].raw = level then s
  else s.updBay b fun x => { x with raw := level, debounce := some Config.lineDebounce }

/-- A change of a bay's debounced presence is handed to the PSM or the ULC (R80). -/
def handPresence (b : ModuleBay) (present : Bool) (s : State) : State :=
  match baySide b with
  | .inl p => s.push (.psmPresence p present)
  | .inr u => s.push (.ulcPresence u present)

/-- A module arrives: its entry becomes PENDING and the bay joins the reader queue (R80). -/
def moduleArrives (b : ModuleBay) (s : State) : State :=
  let s := s.updEntry (bayEntry b) fun x => { x with state := .pending, attempts := 0, inserted := s.now }
  { s with inv := { s.inv with queue := s.inv.queue ++ [b] } }

/-- The bytes asked for by the read under way: word 0, or the rest of the record (R81). -/
def ModuleRead.bytes (r : ModuleRead) : Nat :=
  match r.word0 with
  | none => 4
  | some w => 4 * (getField w 0 8 - 1)

/-- What an attempt has sent when the read under way ends after its first `n` symbols: those of `readFrom`, with which `sent` ends, and
the answers to the bytes read; and then a STOP (R81). -/
def endAfter (n : Nat) (r : ModuleRead) (sent : List LineSymbol) : List LineSymbol :=
  (sent ++ readEnd r.bytes).take (min (sent.length - 5 + n) (sent.length + r.bytes)) ++ [.stop]

/-- The read under way ends after its first `n` symbols, a free value, with a STOP (R81, R83; notes/assumptions/37.md). -/
def cutRead (n : Nat) (r : ModuleRead) (s : State) : State :=
  { s with inv := { s.inv with sent := endAfter n r s.inv.sent }, freeDraws := s.freeDraws + 1 }

/-- The read under way of a bay, if it is the one being read. -/
def Inv.readOf (v : Inv) (b : ModuleBay) : Option ModuleRead := v.reading.filter fun r => r.bay == b

/-- The attempt under way is abandoned where it is this bay's: a STOP at the end of the byte in progress (R83). -/
def abandonRead (b : ModuleBay) (s : State) : State :=
  match s.inv.readOf b with
  | some r => cutRead (Config.readCut s.freeDraws) r { s with inv := { s.inv with reading := none } }
  | none => s

/-- A bay is taken out of the reader wherever it stands, and its entry becomes EMPTY (R83). -/
def moduleLeaves (b : ModuleBay) (s : State) : State :=
  let s := (abandonRead b s).updBay b fun x => { x with retry := none }
  emptyEntry (bayEntry b) { s with inv := { s.inv with queue := s.inv.queue.filter (· != b) } }

/-- A bay's presence debounce expires (R80). -/
def modulePresenceExpiry (b : ModuleBay) (s : State) : State :=
  let x := s.inv.bays[b]
  if x.debounce.isNone then s
  else
    let s := s.updBay b fun x => { x with debounce := none, present := x.raw }
    if x.present = x.raw then s
    else if x.raw then moduleArrives b (handPresence b true s)
    else moduleLeaves b (handPresence b false s)

/-- The reader takes the bay at the head of its queue and begins an attempt (R81). -/
def readerStart (s : State) : State :=
  match s.inv.reading, s.inv.queue with
  | none, b :: rest =>
    let s := s.updEntry (bayEntry b) fun x => { x with state := .reading, attempts := x.attempts + 1 }
    { s with inv := { s.inv with queue := rest, reading := some { bay := b, word0 := none }, sent := readFrom 0x00#8 } }
  | _, _ => s

/-- A module's verdict is handed to the PSM or the ULC, but not while the identity reads before adoption run (R84, R177). -/
def handModuleVerdict (b : ModuleBay) (valid : Bool) (s : State) : State :=
  if s.phase = .identityReads then s
  else
    let e := s.inv.entries[bayEntry b]
    match baySide b with
    | .inl p => s.push (.psmVerdict p (if valid then some e.rated else none))
    | .inr u => s.push (.ulcVerdict u (if valid then some e.figures else none))

/-- A read ends with a verdict (R84). -/
def moduleVerdict (b : ModuleBay) (r : Ruling) (s : State) : State :=
  let s := { s with inv := { s.inv with reading := none } }
  let after := (s.inv.entries[bayEntry b]).ruled false s.now r
  let s := s.updEntry (bayEntry b) fun _ => after
  let s := handModuleVerdict b r.isAccepted s
  raiseIdentity (baySubject b) after.notes false r s

/-- Word 0 of the record being read arrives and is checked; where it passes, the remaining words are asked for at byte 4 (R81,
R69). -/
def readerWord0 (w : Word) (s : State) : State :=
  match s.inv.reading with
  | some { bay := b, word0 := none } =>
    let s := s.send (readEnd 4)
    match checkWord0 (kindOf (bayEntry b)) none w with
    | some r => moduleVerdict b (.rejected r (getField w 0 8)) s
    | none => { s with inv := { s.inv with reading := some { bay := b, word0 := some w } } }.send (readFrom 0x04#8)
  | _ => s

/-- The remaining words of the record arrive, and its checksum is judged (R81, R84). A list of another length is not yet, or
no longer, the record's end. -/
def readerRecord (words : List Word) (s : State) : State :=
  match s.inv.reading with
  | some { bay := b, word0 := some w } =>
    if words.length + 1 ≠ getField w 0 8 then s
    else
      let s := s.send (readEnd (4 * words.length))
      if checksumOk (w :: words) then moduleVerdict b (.accepted (w :: words)) s
      else moduleVerdict b (.rejected .checksum (getField w 0 8)) s
  | _ => s

/-- A failed attempt ends at once, after `n` symbols of the read under way, with a STOP: a retry after 100 ms, or NO_RESPONSE at the
third (R81, R82). -/
def readerFail (n : Nat) (s : State) : State :=
  match s.inv.reading with
  | none => s
  | some r =>
    let s := cutRead n r s
    if s.inv.entries[bayEntry r.bay].attempts < 3 then
      let s := { s with inv := { s.inv with reading := none } }
      (s.updEntry (bayEntry r.bay) fun x => { x with state := .pending }).updBay r.bay fun x =>
        { x with retry := some Config.readRetry }
    else moduleVerdict r.bay (.rejected .noResponse 0) s

/-- How many symbols of a read have gone out with the byte that is not acknowledged: the address for writing, the byte offset, or the
address for reading (R81). -/
def symbolsThrough (byte : Fin 3) : Nat := if byte = 0 then 2 else if byte = 1 then 3 else 5

/-- A byte of the read under way is not acknowledged (R81); which, is a free value (notes/assumptions/37.md). -/
def readerNack (s : State) : State := readerFail (symbolsThrough (Config.nackedByte s.freeDraws)) s

/-- A device has held SCL low for more than 25 ms (R81); where in the read, is a free value (notes/assumptions/37.md). -/
def readerSclTimeout (s : State) : State := readerFail (Config.readCut s.freeDraws) s

/-- A bay's retry timer expires and the bay rejoins the queue (R82). -/
def retryExpiry (b : ModuleBay) (s : State) : State :=
  if s.inv.bays[b].retry.isNone then s
  else
    let s := s.updBay b fun x => { x with retry := none }
    { s with inv := { s.inv with queue := s.inv.queue ++ [b] } }

/-! ## The change count (R86) -/

/-- The number of entries whose state or active profile two inventories differ in. An accepted recommit outside MAIN_UP to MAIN_DOWN
with the profile the entry has already is no change of it, and is not counted: R86 does not say (DESIGN CHOICE,
notes/assumptions/32.md). -/
def changedEntries (a b : Vector InvEntry 26) : Nat :=
  (allEntries.filter fun e => a[e].state != b[e].state || a[e].active != b[e].active).length

/-- The change count after an event that began with the entries `before` (R86). -/
def countChanges (before : Vector InvEntry 26) (s : State) : State :=
  { s with inv := { s.inv with changeCount := s.inv.changeCount + BitVec.ofNat 32 (changedEntries before s.inv.entries) } }

end Sys2Proof.Machine
end

