-- ==== Sys2Proof/Machine/Supplies.lean ====
section
/-! DEFINITION. The Supply Monitor (chapter 5): supply states, the fault count and health band, and available power. -/

namespace Sys2Proof.Machine

def PsuState.code : PsuState → Nat
  | .empty => 0
  | .identifying => 1
  | .rejected => 2
  | .starting => 3
  | .online => 4
  | .faulted => 5
  | .retired => 6

def PsuReason.code : PsuReason → Nat
  | .none => 0
  | .start => 1
  | .pwrOk => 2
  | .alert => 3

def Band.code : Band → Nat
  | .healthy => 0
  | .degraded => 1
  | .suspect => 2
  | .retired => 3

def Policy.code : Policy → Nat
  | .unprotected => 0
  | .nPlusOne => 1
  | .nPlusN => 2

/-- The policy of a stored code. -/
def policyOf (n : Nat) : Policy := if n = 1 then .nPlusOne else if n = 2 then .nPlusN else .unprotected

/-! ## Available power (5.4) -/

/-- The counted capacity of a bay: by its band while ONLINE, else 0 (R95). R95 gives none to a count of 255 outside RETIRED: an ONLINE
bay of that count, which only adoption can make, counts 0 W (DESIGN CHOICE, notes/assumptions/36.md). -/
def Psu.counted (p : Psu) : Nat :=
  if p.state = .online then
    match bandOf p.faults with
    | .healthy => p.rated
    | .degraded => p.rated * 75 / 100
    | .suspect | .retired => 0
  else 0

/-- The counted capacities, bay 1 first. -/
def Psm.capacities (p : Psm) : List Nat := allPsuBays.map fun b => p.bays[b].capacity

/-- Is the need of the policy met (R100)? -/
def needMet (policy : Policy) (caps : List Nat) : Bool :=
  match policy with
  | .unprotected => true
  | .nPlusOne => 2 ≤ (caps.filter (0 < ·)).length
  | .nPlusN => 0 < (caps.take 3).sum && 0 < (caps.drop 3).sum

/-- The raw available power (R100); the NONE figure where the need is not met. -/
def rawAvailable (policy : Policy) (caps : List Nat) : Nat :=
  if needMet policy caps then
    match policy with
    | .unprotected => caps.sum
    | .nPlusOne => caps.sum - caps.foldl max 0
    | .nPlusN => min (caps.take 3).sum (caps.drop 3).sum
  else caps.sum

/-- The image words of P_avail and the redundancy state (section 1.13). -/
def availableOff : Nat := 0x105
def redundancyOff : Nat := 0x106

/-- Available power and the redundancy state are formed again, and both are published whenever either has changed (R99, R100,
R101). `always`: P_avail is handed to the PAL whether or not it changed. -/
def recomputeAvailable (always : Bool) (s : State) : State :=
  let p := s.psm
  let caps := p.capacities
  let raw := rawAvailable p.policy caps
  let lost := !needMet p.policy caps
  let avail := raw - p.margin
  let s' := { s with psm := { p with rawAvailable := raw, lost := lost, available := avail } }
  let s' := onlyIf (avail != p.available || lost != p.lost) (fun s => (s.forceWord availableOff).forceWord redundancyOff) s'
  let detail := putField 0 p.policy.code ||| putField 8 (caps.filter (0 < ·)).length ||| putField 16 raw
  let s' := if lost && !p.lost then raise .redundancyLost .chassis detail s'
    else if !lost && p.lost then raise .redundancyMet .chassis detail s' else s'
  if always || avail ≠ p.available then s'.push (.palAvailable avail) else s'

/-- The watch notice of the policy (image word 0x0004) or of the margin (0x0005) (R99, R101). -/
def takePsmSetting (off : Nat) (w : Word) (s : State) : State :=
  let p := s.psm
  recomputeAvailable true
    { s with psm := if off = 0x04 then { p with policy := policyOf (getField w 0 8) } else { p with margin := getField w 0 16 } }

/-! ## One bay -/

/-- Does a change of band raise PSU_DEGRADED (R95)? -/
def degrades : Band → Band → Bool
  | .healthy, .degraded | .healthy, .suspect | .degraded, .suspect => true
  | _, _ => false

/-- One change of a bay, in one event: the band and the counted capacity follow, the events named are raised (each detail
formed from the bay as it now stands), PSU_DEGRADED if the band rose, and available power is formed again if the counted
capacity changed (R95, R98, R99). Where a change raises both, PSU_DEGRADED is placed after the events named: no rule orders the
two (DESIGN CHOICE, notes/assumptions/25.md). -/
def changePsu (b : PsuBay) (f : Psu → Psu) (events : List (Cause × (Psu → Word))) (s : State) : State :=
  let old := s.psm.bays[b]
  let p := f old
  let p := { p with band := bandOf p.faults, capacity := p.counted, changed := if p.state = old.state then p.changed else s.now }
  let s := s.updPsu b fun _ => p
  let s := forEach events (fun e s => raise e.1 (.psu b) (e.2 p) s) s
  let s := if degrades old.band p.band then
      raise .psuDegraded (.psu b) (putField 0 p.band.code ||| putField 8 p.faults ||| putField 16 p.capacity) s
    else s
  if p.capacity = old.capacity then s else recomputeAvailable false s

/-- Every timer of a bay stopped. -/
def Psu.quiet (p : Psu) : Psu := { p with start := none, restart := none, decay := none }

/-- PSU_FAULT's detail for a reason code (R98). -/
def faultDetail (code : Nat) (p : Psu) : Word := putField 0 code ||| putField 8 p.faults

/-- PSU_RETIRED's detail (R98). -/
def retiredDetail (p : Psu) : Word := putField 0 p.reason.code ||| putField 8 p.faults

/-- A bay whose count has reached 255 is retired (R96). -/
def Psu.retire (reason : PsuReason) (p : Psu) : Psu := { p.quiet with state := .retired, reason := reason, alertTimer := none }

/-- An ALERT assertion: 8 is added, and a count of 255 retires the supply (R93, R96). -/
def countAlert (b : PsuBay) (s : State) : State :=
  let n := min 255 (s.psm.bays[b].faults + 8)
  if n = 255 then changePsu b (fun p => { p with faults := n }.retire .alert) [(.psuRetired, retiredDetail)] s
  else changePsu b (fun p => { p with faults := n, decay := none }) [] s

/-- Entry to STARTING; a debounced ALERT that stands asserted counts as one assertion (R90, R93). `f` is the rest of the
change. -/
def enterStarting (b : PsuBay) (f : Psu → Psu) (s : State) : State :=
  let s := changePsu b (fun p => { (f p).quiet with state := .starting, start := some Config.psuStart }) [] s
  if s.psm.bays[b].alert then countAlert b s else s

/-- A supply arrives or leaves (R88). -/
def takePsuPresence (b : PsuBay) (present : Bool) (s : State) : State :=
  let p := s.psm.bays[b]
  if present then
    if p.state = .empty then
      changePsu b (fun p => { p with state := .identifying, faults := 0, reason := .none }) [] s
    else s
  else if p.state = .empty then s
  else
    changePsu b
      (fun p => { p.quiet with state := .empty, faults := 0, reason := .none, rated := 0, alert := false, alertTimer := none })
      (if psuIsOn p.state then [(.psuFault, faultDetail 4)] else []) s

/-- A supply's identity verdict (R88). -/
def takePsuVerdict (b : PsuBay) (rated : Option Nat) (s : State) : State :=
  if s.psm.bays[b].state = .identifying then
    match rated with
    | some r => enterStarting b (fun p => { p with rated := r }) s
    | none => changePsu b (fun p => { p with state := .rejected }) [] s
  else s

/-- PWR_OK reads good: a STARTING bay enters ONLINE (R89, R90, R94). -/
def readPwrOkGood (b : PsuBay) (s : State) : State :=
  let s := s.updPsu b fun p => { p with pwrOk := true }
  if s.psm.bays[b].state = .starting then
    changePsu b
      (fun p => { p with state := .online, start := none, decay := if p.alert then none else some Config.psuDecay })
      [(.psuOnline, fun p => putField 0 p.capacity)] s
  else s

/-- PWR_OK reads bad: an ONLINE supply has lost it, counts 32 and is faulted or retired (R89, R91, R96). -/
def readPwrOkBad (b : PsuBay) (s : State) : State :=
  let p := s.psm.bays[b]
  let s := s.updPsu b fun p => { p with pwrOk := false }
  if p.pwrOk && p.state == .online then
    let n := min 255 (p.faults + 32)
    if n = 255 then
      changePsu b (fun p => { p with faults := n }.retire .pwrOk)
        [(.psuFault, faultDetail 2), (.psuRetired, retiredDetail)] s
    else
      changePsu b
        (fun p => { p.quiet with faults := n, state := .faulted, reason := .pwrOk, restart := some Config.psuRestart })
        [(.psuFault, faultDetail 2)] s
  else s

/-- The start timer expires (R90, R92). -/
def startExpiry (b : PsuBay) (s : State) : State :=
  let p := s.psm.bays[b]
  if p.start.isSome && p.state == .starting then
    changePsu b (fun p => { p.quiet with state := .faulted, reason := .start, restart := some Config.psuRestart })
      [(.psuFault, faultDetail 1)] s
  else s

/-- The restart timer expires (R92). -/
def restartExpiry (b : PsuBay) (s : State) : State :=
  let p := s.psm.bays[b]
  if p.restart.isSome && p.state == .faulted then enterStarting b id s else s

/-- ALERT as read at a tick (R93). -/
def readAlert (b : PsuBay) (level : Bool) (s : State) : State :=
  if s.psm.bays[b].alertRaw = level then s
  else s.updPsu b fun p => { p with alertRaw := level, alertTimer := some Config.lineDebounce }

/-- The ALERT debounce expires (R93, R94). -/
def alertExpiry (b : PsuBay) (s : State) : State :=
  let p := s.psm.bays[b]
  if p.alertTimer.isNone then s
  else
    let s := s.updPsu b fun p => { p with alertTimer := none, alert := p.alertRaw }
    if p.alertRaw = p.alert then s
    else if p.alertRaw then (if psuIsOn p.state then countAlert b s else s)
    else if p.state = .online then s.updPsu b fun p => { p with decay := some Config.psuDecay }
    else s

/-- The decay timer expires (R94). -/
def faultDecayExpiry (b : PsuBay) (s : State) : State :=
  let p := s.psm.bays[b]
  if p.decay.isSome && p.state == .online then
    changePsu b (fun p => { p with faults := p.faults - 1, decay := some Config.psuDecay }) [] s
  else s

/-- The PSU clear command (R97). -/
def psuClear (b : PsuBay) (s : State) : State :=
  let cleared (p : Psu) : Psu := { p with faults := 0, reason := .none }
  match s.psm.bays[b].state with
  | .empty | .identifying | .rejected => s
  | .starting => changePsu b cleared [] s
  | .online => changePsu b (fun p => { cleared p with decay := if p.alert then none else some Config.psuDecay }) [] s
  | .faulted | .retired => enterStarting b cleared s

end Sys2Proof.Machine
end

