-- ==== Sys2Proof/Machine/Cooling.lean ====
section
/-! DEFINITION. The Cooling Controller (chapter 7): fans, thermal demand, zone targets, cooling factors and the fan
reservation. -/

namespace Sys2Proof.Machine

def FanState.code : FanState → Nat
  | .absent => 0
  | .spinup => 1
  | .ok => 2
  | .failed => 3

/-! ## Demand and the critical condition (7.2) -/

/-- The readings considered for a slot, with their sensor numbers 1–4 (R134). -/
def Thermal.considered (t : Thermal) : List (Nat × Int) :=
  let all := t.readings.toList.zipIdx.filterMap fun (r, k) => r.map fun v => (k + 1, v)
  match t.sensors with
  | none => all
  | some n => all.filter fun p => p.1 ≤ n

/-- The highest present considered reading (R134). -/
def Thermal.highest (t : Thermal) : Option Int := (t.considered.map (·.2)).max?

/-- Least whole number not below a quotient (00_scope, Arithmetic). -/
def ceilDiv (a b : Nat) : Nat := (a + b - 1) / b

/-- The demand of the curve for a highest reading, with the two mended faults of the settings (R135). -/
def ZoneState.curve (z : ZoneState) (h : Int) : Nat :=
  let tHigh := if z.tHigh ≤ z.tLow then z.tLow + 1 else z.tHigh
  let dMin := if z.dMax < z.dMin then z.dMax else z.dMin
  if h ≤ z.tLow then dMin
  else if tHigh ≤ h then z.dMax
  else dMin + ceilDiv ((h - z.tLow).toNat * (z.dMax - dMin)) (tHigh - z.tLow).toNat

/-- A slot's demand, if it is a member of its zone (R135). -/
def slotDemand (z : ZoneState) (t : Thermal) : Option Nat :=
  if !t.member then none
  else match t.fresh, t.highest with
    | some _, some h => some (z.curve h)
    | _, _ => some z.dMax

/-- The slots of a zone, in order (R108). -/
def zoneSlots (z : Zone) : List Slot := allSlots.filter fun i => zoneOf i == z

/-- The fan positions of a zone. -/
def zoneFans (z : Zone) : List FanPos := allFans.filter fun p => fanZone p == z

/-- Qualifying readings of a zone as (reading, slot, sensor), in slot and then sensor order (R136). -/
def Clc.qualifying (c : Clc) (z : Zone) : List (Int × Slot × Nat) :=
  (zoneSlots z).flatMap fun i =>
    if c.slots[i].member then
      (c.slots[i].considered.filter fun p => c.zones[z].tCrit ≤ p.2).map fun p => (p.2, i, p.1)
    else []

/-- The highest qualifying reading, the first of equals (R136). -/
def worst : List (Int × Slot × Nat) → Option (Int × Slot × Nat)
  | [] => none
  | q :: rest => some (rest.foldl (fun a b => if a.1 < b.1 then b else a) q)

/-- THERMAL_CRITICAL's detail (R136). -/
def criticalDetail (q : Int × Slot × Nat) : Word :=
  putField 0 (q.2.1.val + 1) ||| putField 8 q.2.2 ||| putField 16 (bits16 q.1)

/-- The target of a zone (R137). -/
def Clc.targetOf (c : Clc) (z : Zone) (critical : Bool) : Nat :=
  if critical then 100
  else
    let demands := (zoneSlots z).filterMap fun i => slotDemand c.zones[z] c.slots[i]
    demands.foldl max (max c.zones[z].floorDuty (if c.zones[z].modulePowered then c.moduleFloor else 0))

/-! ## Drives, cooling factors and the reservation (7.4, 7.5) -/

/-- The drive of a fan position (R140). -/
def Clc.driveOf (c : Clc) (p : FanPos) : Nat :=
  match c.fans[p].state with
  | .absent => 0
  | .spinup | .failed => 100
  | .ok =>
    match c.fans[fanPartner p].state with
    | .spinup | .failed => 100
    | _ => c.zones[fanZone p].applied

/-- The cooling factor of a zone (R141). -/
def Clc.factorOf (c : Clc) (z : Zone) : Nat :=
  match ((zoneFans z).filter fun p => c.fans[p].state == .ok).length with
  | 0 => 0
  | 1 => 60
  | _ => 100

/-- A fan's share of the reservation (R142). -/
def fanShare (watts drive : Nat) : Nat := ceilDiv (watts * drive ^ 3) 1000000

/-- The fan reservation (R142). -/
def Clc.reservationOf (c : Clc) : Nat :=
  let shares := allFans.map fun p =>
    if c.fans[p].state = .absent then 0 else fanShare c.zones[fanZone p].fanWatts c.fans[p].drive
  ceilDiv shares.sum 10 * 10

/-- The number of fans present in a zone. -/
def Clc.fansPresent (c : Clc) (z : Zone) : Nat := ((zoneFans z).filter fun p => c.fans[p].state != .absent).length

/-! ## Forming everything again

Demand, the critical flag, the target, the drives, φ and R are functions of what the CLC holds, and every event that changes
an input forms them again (R135–R142). Formed from unchanged inputs they do not change, so one operation forms all of them. -/

/-- Demands, critical flag, target and applied duty of one zone (R135–R138). -/
def formZone (z : Zone) (s : State) : State :=
  let s := forEach (zoneSlots z) (fun i s => s.updThermal i fun t => { t with demand := slotDemand s.clc.zones[z] t }) s
  let found := worst (s.clc.qualifying z)
  let s := match found with
    | some q =>
      if s.clc.zones[z].critical then s else raise .thermalCritical (.zone z) (criticalDetail q) s
    | none => s
  let target := s.clc.targetOf z found.isSome
  s.updZone z fun x => { x with critical := found.isSome, target := target, applied := max x.applied target }

/-- Drives of every position (R140), with the 20 %-drive records (R130). -/
def formDrives (s : State) : State :=
  forEach allFans (fun p s =>
    let d := s.clc.driveOf p
    s.updFan p fun f => { f with drive := d, driven := f.driven && 20 ≤ d }) s

/-- The cooling factor of one zone; a change is handed to the PAL, and a change to 0 raises COOLING_LOST (R141). -/
def formFactor (z : Zone) (s : State) : State :=
  let f := s.clc.factorOf z
  if f = s.clc.zones[z].factor then s
  else
    let s := (s.updZone z fun x => { x with factor := f }).push (.palCooling z f)
    if f = 0 then raise .coolingLost (.zone z) (putField 0 (s.clc.fansPresent z)) s else s

/-- The fan reservation; a change is handed to the PAL (R142). -/
def formReservation (s : State) : State :=
  let r := s.clc.reservationOf
  if r = s.clc.reservation then s
  else { s with clc := { s.clc with reservation := r } }.push (.palReservation r)

/-- Everything the CLC forms, in the order of the rules: zones, drives, φ, then R (R142: φ is handed over first). Events of it are
raised behind those of the fans, THERMAL_CRITICAL of zones 1 to 4 before COOLING_LOST of zones 1 to 4: no rule orders them (DESIGN
CHOICE, notes/assumptions/43.md). -/
def formCooling (s : State) : State :=
  formReservation (forEach allZones formFactor (formDrives (forEach allZones formZone s)))

/-! ## Fans (7.1) -/

/-- FAN_PRES as read at a tick (R129). -/
def readFanPresence (p : FanPos) (level : Bool) (s : State) : State :=
  if s.clc.fans[p].raw = level then s
  else s.updFan p fun f => { f with raw := level, presence := some Config.lineDebounce }

/-- A fan enters SPINUP (R129, R133). -/
def Fan.spinUp (probe : Bool) (f : Fan) : Fan :=
  { f with state := .spinup, probe := probe, spin := some Config.spinUp, probeTimer := none }

/-- A fan enters FAILED (R133). -/
def Fan.fail (f : Fan) : Fan :=
  { f with state := .failed, probe := false, lowGates := 0, spin := none, probeTimer := some Config.fanProbe }

/-- A position becomes ABSENT (R129). -/
def Fan.leave (f : Fan) : Fan :=
  { f with state := .absent, probe := false, lowGates := 0, rpm := 0, spin := none, probeTimer := none }

/-- A position's presence debounce expires (R129). -/
def fanPresenceExpiry (p : FanPos) (s : State) : State :=
  let f := s.clc.fans[p]
  if f.presence.isNone then s
  else
    let s := s.updFan p fun f => { f with presence := none, present := f.raw }
    if f.present = f.raw then s
    else if f.raw then formCooling (s.updFan p fun f => ({ f with lowGates := 0, rpm := 0, tach := 0 }).spinUp false)
    else formCooling (s.updFan p Fan.leave)

/-- FAN_FAILED's detail (R143). -/
def fanFailedDetail (f : Fan) (insertion : Bool) : Word := putField 0 f.rpm ||| putBit 16 insertion

/-- The spin-up timer expires and the fan is tested (R131). -/
def spinUpEnd (p : FanPos) (s : State) : State :=
  let f := s.clc.fans[p]
  if f.spin.isNone || f.state != .spinup then s
  else if s.clc.zones[fanZone p].minRpm ≤ f.rpm then
    let s := s.updFan p fun f => { f with state := .ok, probe := false, lowGates := 0, spin := none }
    formCooling (if f.probe then raise .fanRestored (.fan p) (putField 0 f.rpm) s else s)
  else
    let s := s.updFan p Fan.fail
    formCooling (if f.probe then s else raise .fanFailed (.fan p) (fanFailedDetail f true) s)

/-- The probe timer expires (R133). -/
def probeExpiry (p : FanPos) (s : State) : State :=
  let f := s.clc.fans[p]
  if f.probeTimer.isNone || f.state != .failed then s else formCooling (s.updFan p (Fan.spinUp true))

/-- A fan's counter over the edges of its FAN_TACH: it saturates at 255, and those of an ABSENT position are disregarded (R130). -/
def Fan.count (edges : Nat) (f : Fan) : Fan := if f.state = .absent then f else { f with tach := min 255 (f.tach + edges) }

/-- The rising edges of a line that brings `rate` a second, in the tick of a gate that follows its first `k` (R130). -/
def edgesAt (rate k : Nat) : Nat := (k + 1) * rate / Config.gate - k * rate / Config.gate

/-- The edges of one chassis tick are counted (R130; notes/assumptions/6.md). -/
def countEdges (s : State) : State :=
  forEach allFans (fun p s => s.updFan p (Fan.count (edgesAt s.pins.fanTach[p] s.clc.gate))) s

/-- One position at a gate end, its counter having counted `edges` more (R130, R132). -/
def gatePosition (p : FanPos) (edges : Nat) (s : State) : State :=
  let old := (s.clc.fans[p]).count edges
  let rpm := if old.state = .absent then 0 else old.tach * 30
  let low := if old.state = .ok && old.driven && rpm < s.clc.zones[fanZone p].minRpm then old.lowGates + 1
    else if old.state = .ok then 0 else old.lowGates
  let f : Fan := { old with rpm := rpm, tach := 0, driven := true, lowGates := low }
  if old.state = .ok && 3 ≤ low then raise .fanFailed (.fan p) (fanFailedDetail f false) (s.updFan p fun _ => f.fail)
  else s.updFan p fun _ => f

/-- The end of a tach gate (R130, R132). Fans that fail at it raise their events in the order 1A to 4B (DESIGN CHOICE,
notes/assumptions/43.md). -/
def tachGateEnd (edges : Vector Nat 8) (s : State) : State :=
  formCooling (forEach allFans (fun p s => gatePosition p edges[p] s) s)

/-- FAN_TACH as a gate has shown it: what each counter has counted, and the edges not counted yet. -/
def gateRates (edges : Vector Nat 8) (c : Clc) : Vector Nat 8 := Vector.ofFn fun p => c.fans[p].tach + edges[p]

/-- A control period (R139). -/
def controlPeriod (s : State) : State :=
  formCooling (forEach allZones (fun z s =>
    s.updZone z fun x => if x.target < x.applied then { x with applied := max x.target (x.applied - x.slew) } else x) s)

/-! ## Readings, members and modules -/

/-- The watch notice of record word 2 or 3, with the readings as stored (R134). A notice carries the one word performed (R14): the two readings
of the other word are those the CLC holds, which can differ from the DRAM while a clearing of R22 is on its way to that word, or has been
performed after a blade's write of it (DESIGN CHOICE, notes/assumptions/46.md). -/
def takeReadings (i : Slot) (which : ThermalWord) (w : Word) (s : State) : State :=
  let a := readingOf (getField w 0 16)
  let b := readingOf (getField w 16 16)
  formCooling (s.updThermal i fun t =>
    { t with
      fresh := some Config.freshness
      readings := match which with
        | .first => (t.readings.set 0 a).set 1 b
        | .second => (t.readings.set 2 a).set 3 b })

/-- A slot's freshness timer expires (R134, R135). -/
def freshnessExpiry (i : Slot) (s : State) : State :=
  if s.clc.slots[i].fresh.isNone then s else formCooling (s.updThermal i fun t => { t with fresh := none })

/-- A slot joins or leaves its zone's member set (R43, R135). -/
def takeMember (i : Slot) (m : Bool) (s : State) : State := formCooling (s.updThermal i fun t => { t with member := m })

/-- A sensor count is handed over (R77, R79). -/
def takeSensors (i : Slot) (n : Option Nat) (s : State) : State :=
  formCooling (s.updThermal i fun t => { t with sensors := n })

/-- A slot has become EMPTY (R59, R134). -/
def takeCoolingRemoval (i : Slot) (s : State) : State := formCooling (s.updThermal i fun _ => Thermal.reset)

/-- The powered state of a zone's module (R137, R152). -/
def takeModulePowered (b : UplinkBay) (p : Bool) (s : State) : State :=
  formCooling (s.updZone (uplinkZone b) fun x => { x with modulePowered := p })

end Sys2Proof.Machine
end

