-- ==== Sys2Proof/Machine/Uplinks.lean ====
section
/-! DEFINITION. The Uplink Controller (chapter 8): uplink states, link debounce and flap count, member lists, placement, failover,
failback and the wait list. -/

namespace Sys2Proof.Machine

def UplinkState.code : UplinkState → Nat
  | .empty => 0
  | .identifying => 1
  | .rejected => 2
  | .off => 3
  | .powering => 4
  | .linkDown => 5
  | .up => 6
  | .held => 7
  | .fault => 8

def UplinkReason.code : UplinkReason → Nat
  | .none => 0
  | .powerTimeout => 1
  | .modPg => 2

/-- The code of an uplink where 0 stands for none (section 1.13). -/
def uplinkCode : Option UplinkBay → Nat
  | none => 0
  | some b => b.val + 1

/-! ## Members and room (8.4) -/

/-- The units in use of a bay: its members' counted weights (R153). -/
def Ulc.units (u : Ulc) (b : UplinkBay) : Nat := (u.bays[b].members.map fun i => u.slots[i].counted).sum

/-- The weight a slot counts when it joins a list (R153). -/
def Placement.joinWeight (p : Placement) : Nat := p.weight.getD 4

/-- Has an uplink room for a slot (R153)? -/
def Ulc.hasRoom (u : Ulc) (b : UplinkBay) (i : Slot) : Bool :=
  let f := u.bays[b].figures
  u.units b + u.slots[i].joinWeight ≤ f.capacity && u.bays[b].members.length + 1 ≤ f.maxMembers

/-- An uplink that is UP and has room for a slot (R156). -/
def Ulc.takes (u : Ulc) (b : UplinkBay) (i : Slot) : Bool := u.bays[b].state == .up && u.hasRoom b i

/-- The first uplink of a slot's list that takes it (R156, R157, R158: a departed uplink is not UP). -/
def Ulc.choose (u : Ulc) (i : Slot) : Option UplinkBay := u.slots[i].prefs.find? fun b => u.takes b i

/-- A slot joins a list at the tail, SETTLING (R153, R154). -/
def joinList (b : UplinkBay) (i : Slot) (s : State) : State :=
  (s.updUplink b fun u => { u with members := u.members ++ [i] }).updPlacement i fun p =>
    { p with
      attach := .settling, uplink := some b, counted := p.joinWeight
      settle := some { detach := false, left := s.ulc.settleTime } }

/-- A slot stands on no list: DETACHED, with no settle timer (R154). -/
def Placement.detached (p : Placement) : Placement :=
  { p with attach := .detached, uplink := none, settle := none, counted := 0 }

/-- A slot leaves the list it stands in (R154). -/
def leaveList (i : Slot) (s : State) : State :=
  let s' := match s.ulc.slots[i].uplink with
    | some b => s.updUplink b fun u => { u with members := u.members.filter (· != i) }
    | none => s
  s'.updPlacement i Placement.detached

/-- A slot joins the tail of the wait list, and leaves it (R157). -/
def joinWait (i : Slot) (s : State) : State :=
  if s.ulc.wait.contains i then s else { s with ulc := { s.ulc with wait := s.ulc.wait ++ [i] } }

def leaveWait (i : Slot) (s : State) : State :=
  { s with ulc := { s.ulc with wait := s.ulc.wait.filter (· != i) } }

/-- SLOT_PARKED: reason 1 NO_ROOM, 2 MODE, and the uplink the slot was leaving (R156). -/
def raiseParked (i : Slot) (reason : Nat) (leaving : Option UplinkBay) (s : State) : State :=
  raise .slotParked (.slot i) (putField 0 reason ||| putField 8 (uplinkCode leaving)) s

/-- One slot of a walk (R157). -/
def walkSlot (i : Slot) (s : State) : State :=
  match s.ulc.choose i with
  | some b => joinList b i (leaveWait i s)
  | none => s

/-- A walk of the wait list, in OPERATE only (R157). -/
def walk (s : State) : State := if s.ulc.mode = .operate then forEach s.ulc.wait walkSlot s else s

/-- A slot finds an uplink under its preference list, or waits (R156, R158). -/
def placeOrPark (i : Slot) (leaving : Option UplinkBay) (s : State) : State :=
  if s.ulc.slots[i].prefs.isEmpty then s
  else match s.ulc.choose i with
    | some b => joinList b i s
    | none => raiseParked i 1 leaving (joinWait i s)

/-- Placement of a slot in RUN that stands on no list (R156). -/
def place (i : Slot) (s : State) : State :=
  if s.ulc.slots[i].prefs.isEmpty || s.ulc.slots[i].uplink.isSome || s.ulc.wait.contains i then s
  else if s.ulc.mode = .operate then placeOrPark i none s
  else raiseParked i 2 none (joinWait i s)

/-- Failover of the members a departed uplink had, oldest first (R158). -/
def failover (b : UplinkBay) (members : List Slot) (s : State) : State :=
  let s := forEach members (fun i s => s.updPlacement i Placement.detached) s
  forEach members (fun i s => placeOrPark i (some b) s) s

/-! ## Uplink states (8.1–8.3) -/

/-- Is a slot's first preference this uplink? -/
def Placement.prefersFirst (p : Placement) (b : UplinkBay) : Bool := p.prefs.head? == some b

/-- Failback to an uplink that has entered UP (R159). -/
def failback (b : UplinkBay) (s : State) : State :=
  let s := forEach s.ulc.wait (fun i s =>
    if s.ulc.slots[i].prefersFirst b && s.ulc.hasRoom b i then joinList b i (leaveWait i s) else s) s
  forEach allSlots (fun i s =>
    let p := s.ulc.slots[i]
    if p.uplink.isSome && p.uplink != some b && p.prefersFirst b && s.ulc.hasRoom b i then joinList b i (leaveList i s)
    else s) s

/-- The timers of a bay as it enters a state (R148–R151): the link debounce goes on from HELD to UP. -/
def Uplink.timed (u : Uplink) (old new : UplinkState) : Uplink :=
  match new with
  | .powering => { u with power := some Config.modulePower, link := none, decay := none }
  | .up | .held => { u with power := none, link := if old = .held then u.link else none, decay := some Config.flapDecay }
  | _ => { u with power := none, link := none, decay := none }

/-- UPLINK_DOWN's detail (R152). -/
def downDetail (new : UplinkState) (members flap : Nat) : Word :=
  putField 0 new.code ||| putField 8 members ||| putField 16 flap

/-- The slots may come back to an uplink that has entered UP (R159, R157). -/
def returnTo (b : UplinkBay) (s : State) : State :=
  walk (if s.ulc.mode = .operate && s.ulc.failback then failback b s else s)

/-- A change of a bay's state, with the rest of the change `f`: its timers, the hand-overs, the event, and what follows for
the slots (R147–R152, R158, R159). -/
def setBay (b : UplinkBay) (new : UplinkState) (f : Uplink → Uplink) (s : State) : State :=
  let old := s.ulc.bays[b]
  let u := f { (old.timed old.state new) with state := new, members := [] }
  let s := s.updUplink b fun _ => u
  let s := ((s.push (.palModule b new)).push (.clcModule b (isPowered new))).push .meuReport
  if old.state = .up then
    failover b old.members (raise .uplinkDown (.uplink b) (downDetail new old.members.length u.flap) s)
  else match new with
    | .fault => raise .uplinkDown (.uplink b) (downDetail new 0 u.flap) s
    | .up => returnTo b (raise .uplinkUp (.uplink b) (putField 0 u.flap ||| putBit 8 (old.state == .held)) s)
    | .held => raise .uplinkHeld (.uplink b) (putField 0 u.flap) s
    | _ => s

/-- In QUIESCE a powered module without members is switched off (R162). -/
def switchOff (b : UplinkBay) (s : State) : State :=
  if s.ulc.mode = .quiesce && isPowered s.ulc.bays[b].state && s.ulc.bays[b].members.isEmpty then setBay b .off id s else s

/-- A member has left a list, other than by failover: a walk, and in QUIESCE the module check (R157, R160, R162). -/
def memberLeft (b : Option UplinkBay) (s : State) : State :=
  let s := walk s
  match b with
  | some b => switchOff b s
  | none => s

/-- Flap count 0 and held marker clear. -/
def Uplink.calm (u : Uplink) : Uplink := { u with flap := 0, held := false }

/-- A module arrives or leaves (R147). -/
def takeUplinkPresence (b : UplinkBay) (present : Bool) (s : State) : State :=
  let u := s.ulc.bays[b]
  if present then
    if u.state = .empty then setBay b .identifying (fun u => { u.calm with reason := .none }) s else s
  else if u.state = .empty then s
  else setBay b .empty (fun u => { u.calm with reason := .none, figures := ModuleFigures.zero }) s

/-- A module's identity verdict (R147). -/
def takeUplinkVerdict (b : UplinkBay) (figures : Option ModuleFigures) (s : State) : State :=
  if s.ulc.bays[b].state = .identifying then
    match figures with
    | some f => setBay b .off (fun u => { u with figures := f }) s
    | none => setBay b .rejected id s
  else s

/-- The PAL's module power-on hand-over (R148). -/
def takePowerOn (b : UplinkBay) (s : State) : State :=
  if s.ulc.bays[b].state = .off then setBay b .powering id s else s.push (.palModule b s.ulc.bays[b].state)

/-- The up debounce as a timer length (R149: 10–255 × 10 ms), and the down debounce (1–25 × 10 ms). -/
def Ulc.upLength (u : Ulc) : Nat := u.upDebounce * 10
def Ulc.downLength (u : Ulc) : Nat := u.downDebounce * 10

/-- MOD_PG reads good (R148). The tick of the entry to LINK_DOWN reads LINK_UP too (R149). -/
def readModPgGood (b : UplinkBay) (s : State) : State :=
  let s := s.updUplink b fun u => { u with modPg := true }
  if s.ulc.bays[b].state = .powering then
    setBay b .linkDown (fun u => { u with link := if u.linkUp then some s.ulc.upLength else none }) s
  else s

/-- MOD_PG reads bad: after a good reading a powered module past POWERING faults (R148, R151). -/
def readModPgBad (b : UplinkBay) (s : State) : State :=
  let u := s.ulc.bays[b]
  let s := s.updUplink b fun u => { u with modPg := false }
  if u.modPg && isPowered u.state && u.state != .powering then setBay b .fault (fun u => { u with reason := .modPg }) s
  else s

/-- MOD_PG as read at a tick. -/
def readModPg (b : UplinkBay) (level : Bool) (s : State) : State := if level then readModPgGood b s else readModPgBad b s

/-- The power timer expires (R148). -/
def powerExpiry (b : UplinkBay) (s : State) : State :=
  let u := s.ulc.bays[b]
  if u.power.isSome && u.state == .powering then setBay b .fault (fun u => { u with reason := .powerTimeout }) s else s

/-- LINK_UP as read at a tick: it starts or stops the link debounce (R149). -/
def readLinkUp (b : UplinkBay) (level : Bool) (s : State) : State :=
  s.updUplink b fun u =>
    let u := { u with linkUp := level }
    match u.state with
    | .linkDown => { u with link := if level then some (u.link.getD s.ulc.upLength) else none }
    | .up | .held => { u with link := if level then none else some (u.link.getD s.ulc.downLength) }
    | _ => u

/-- The link debounce expires in LINK_DOWN: the link has risen (R149). -/
def linkUpExpiry (b : UplinkBay) (s : State) : State :=
  let u := s.ulc.bays[b]
  if u.link.isSome && u.state == .linkDown then setBay b (if u.held then .held else .up) id s else s

/-- A drop adds 8 to the flap count, and a count of 32 sets the held marker (R149, R150). -/
def Uplink.dropped (u : Uplink) : Uplink :=
  let n := min 255 (u.flap + 8)
  { u with flap := n, held := u.held || 32 ≤ n }

/-- The link debounce expires in UP or HELD: the link has dropped (R149, R162). -/
def linkDownExpiry (b : UplinkBay) (s : State) : State :=
  let u := s.ulc.bays[b]
  if u.link.isSome && u.state == .up then switchOff b (setBay b .linkDown Uplink.dropped s)
  else if u.link.isSome && u.state == .held then setBay b .linkDown Uplink.dropped s
  else s

/-- The decay timer expires (R150). -/
def flapDecayExpiry (b : UplinkBay) (s : State) : State :=
  let u := s.ulc.bays[b]
  if u.decay.isNone || !(u.state == .up || u.state == .held) then s
  else
    let n := u.flap - 1
    let calm (u : Uplink) : Uplink := { u with flap := n, held := u.held && 16 ≤ n }
    if u.state = .held && n < 16 then setBay b .up calm s
    else s.updUplink b fun u => { calm u with decay := some Config.flapDecay }

/-- The uplink clear command (R151). -/
def uplinkClear (b : UplinkBay) (s : State) : State :=
  match s.ulc.bays[b].state with
  | .empty | .identifying | .rejected => s
  | .fault => setBay b .off (fun u => { u.calm with reason := .none }) s
  | .off | .powering | .linkDown | .up => s.updUplink b Uplink.calm
  | .held => setBay b .up Uplink.calm s

/-! ## Slots -/

/-- The SSQ reports that a slot has entered RUN (R156). -/
def takeRunEntry (i : Slot) (s : State) : State := place i (s.updPlacement i fun p => { p with inRun := true })

/-- The SSQ asks for a detach at the entry to DETACH (R160). -/
def takeDetach (i : Slot) (s : State) : State :=
  let p := s.ulc.slots[i]
  let s := leaveWait i ((leaveList i s).updPlacement i fun p => { p with inRun := false })
  let s := match p.attach with
    | .attached => s.updPlacement i fun p => { p with settle := some { detach := true, left := s.ulc.settleTime } }
    | _ => s.push (.ssqDetachDone i)
  if p.uplink.isSome then memberLeft p.uplink s else s

/-- The SSQ reports a slot's entry to FAULT (R160). -/
def takeDrop (i : Slot) (s : State) : State :=
  let p := s.ulc.slots[i]
  let s := leaveWait i ((leaveList i s).updPlacement i fun p => { p with inRun := false })
  if p.uplink.isSome then memberLeft p.uplink s else s

/-- The SSQ reports a slot's removal: its weight goes with its profile (R160). -/
def takeUplinkRemoval (i : Slot) (s : State) : State := takeDrop i (s.updPlacement i fun p => { p with weight := none })

/-- A weight is handed over: a member takes a lower one at once (R153). -/
def takeWeight (i : Slot) (w : Option Nat) (s : State) : State :=
  let s := s.updPlacement i fun p => { p with weight := w }
  let p := s.ulc.slots[i]
  if p.uplink.isSome && p.joinWeight < p.counted then walk (s.updPlacement i fun p => { p with counted := p.joinWeight }) else s

/-- The watch notice of a preference list (R155). -/
def takePrefs (i : Slot) (prefs : List UplinkBay) (s : State) : State :=
  let s := s.updPlacement i fun p => { p with prefs := prefs }
  let p := s.ulc.slots[i]
  if p.uplink.isSome then s
  else if s.ulc.wait.contains i then (if prefs.isEmpty then leaveWait i s else walk s)
  else if p.inRun then place i s
  else s

/-- A change of the actual mode (R161, R162). Bays that the change to QUIESCE switches off are taken A to D: R162 gives no order (DESIGN
CHOICE, notes/assumptions/35.md). -/
def takeUplinkMode (m : Mode) (s : State) : State :=
  let s := { s with ulc := { s.ulc with mode := m } }
  forEach allUplinks switchOff (walk s)

/-- A slot's settle timer expires (R154, R160). -/
def settleExpiry (i : Slot) (s : State) : State :=
  match s.ulc.slots[i].settle with
  | none => s
  | some t =>
    let s := s.updPlacement i fun p => { p with settle := none, attach := if t.detach then p.attach else .attached }
    if t.detach then s.push (.ssqDetachDone i) else s

end Sys2Proof.Machine
end

