-- ==== Sys2Proof/Machine/Allocation.lean ====
section
/-! DEFINITION. The Power Allocator (chapter 6): the allocation table, the admission queue, the computation, passes, DEFICIT and
the throttle causes. -/

namespace Sys2Proof.Machine

/-! ## What a computation uses (6.2) -/

/-- The effective cap for a cooling factor (R108). -/
def effectiveCap (floor cap factor : Nat) : Nat := min cap (max floor (5 * (cap * factor / 500)))

/-- The plan of a profile under a cooling factor (R108). -/
def planOf (factor : Nat) (p : BladeProfile) : Plan :=
  { floor := p.mainFloor, cap := p.cap, effCap := effectiveCap p.mainFloor p.cap factor }

/-- The request in use of a slot with a plan (R107). -/
def requestInUse (a : Alloc) (p : Plan) : Nat :=
  if a.silent && a.reclaim then p.floor
  else if a.request = 0 then 0
  else min p.effCap (max p.floor a.request)

/-- The entry with its request in use formed again (R107). -/
def Alloc.formUse (a : Alloc) : Alloc :=
  { a with inUse := match a.plan with
      | some p => requestInUse a p
      | none => 0 }

/-- The power of a module that is in the infrastructure load (R109). -/
def moduleLoad (s : State) (b : UplinkBay) : Nat :=
  if isPowered s.pal.modules[b] || s.pal.handedOver[b] then s.ulc.bays[b].figures.power else 0

/-- The infrastructure load (R109). -/
def loadOf (s : State) : Nat := s.pal.baseLoad + s.pal.reservation + (allUplinks.map (moduleLoad s)).sum

/-- The floor of an ADMITTED slot, or its commitment without an active profile (R110). -/
def Alloc.floorOf (a : Alloc) : Nat :=
  match a.plan with
  | some p => p.floor
  | none => a.grant

/-- Is an ADMITTED slot departing (R110)? One still reported in ADMIT_WAIT is not: it counts as one in MAIN_UP (DEDUCED,
notes/assumptions/40.md). -/
def Alloc.departing (a : Alloc) : Bool :=
  !(a.state == .admitWait || a.state == .mainUp || a.state == .run) || (a.plan.isSome && a.inUse == 0)

/-- A slot's share of the committed floors F (R110). -/
def Alloc.committed (a : Alloc) : Nat :=
  match a.standing with
  | .none => 0
  | .standby => a.allowance
  | .admitted => a.floorOf

/-- May an ADMITTED slot be shed, but for its class (R111)? One still reported in ADMIT_WAIT, whose admission is on its way, counts as
one in MAIN_UP (DEDUCED, notes/assumptions/40.md). -/
def Alloc.sheddable (a : Alloc) : Bool :=
  a.standing == .admitted && (a.state == .admitWait || a.state == .mainUp || a.state == .run) && !a.shed

/-- A slot's share of F_keep (R111). -/
def Alloc.kept (a : Alloc) : Nat :=
  if a.standing == .standby then a.allowance else if a.sheddable then a.floorOf else 0

/-- Is any reduction unsettled? -/
def Pal.unsettled (p : Pal) : Bool := allSlots.any fun i => p.slots[i].unsettled

/-- The sum of the in-force amounts. -/
def Pal.inForceSum (p : Pal) : Nat := (allSlots.map fun i => p.slots[i].inForce).sum

/-- May modules and blades be admitted in this mode (R112, R113)? -/
def Pal.admits? (p : Pal) : Bool := p.mode == .operate && !p.changePending

/-! ## DEFICIT (6.5) -/

/-- The detail of the DEFICIT events (R124). -/
def deficitDetail (s : State) : Word := putField 0 s.pal.available ||| putField 16 (s.pal.inForceSum + s.pal.load)

/-- An entry with or without the DEFICIT cause. -/
def Alloc.setDeficit (on : Bool) (a : Alloc) : Alloc := { a with causes := { a.causes with deficit := on } }

/-- A slot above its target takes the DEFICIT cause (R117, R124). -/
def Alloc.throttled (a : Alloc) : Alloc := if a.target < a.inForce then a.setDeficit true else a

/-- DEFICIT is evaluated (R124). -/
def evalDeficit (s : State) : State :=
  let short : Bool := s.pal.available < s.pal.inForceSum + s.pal.load
  if short && !s.pal.deficit then
    let s := forEach allSlots (fun i s => s.updAlloc i Alloc.throttled) (s.updPal fun p => { p with deficit := true })
    raise .deficitEntered .chassis (deficitDetail s) s
  else if !short && s.pal.deficit then
    let s := forEach allSlots (fun i s => s.updAlloc i (Alloc.setDeficit false))
      (s.updPal fun p => { p with deficit := false, passPending := true })
    raise .deficitCleared .chassis (deficitDetail s) s
  else s

/-! ## The computation (6.3) -/

/-- Slots in the order they are shed within a class: the latest admission sequence first (R111). -/
def insertLatest (p : Pal) (i : Slot) : List Slot → List Slot
  | [] => [i]
  | j :: rest =>
    if (p.slots[j].sequence.getD 0) < (p.slots[i].sequence.getD 0) then i :: j :: rest else j :: insertLatest p i rest

/-- The candidates of one class, in order (R111). -/
def shedClass (p : Pal) (k : Nat) : List Slot :=
  (allSlots.filter fun i => p.slots[i].sheddable && p.slots[i].cls == k).foldl (fun l i => insertLatest p i l) []

/-- The slots marked while F_keep exceeds B (R111). -/
def toShed (p : Pal) (budget : Int) : List Slot → Int → List Slot
  | [], _ => []
  | i :: rest, keep =>
    if budget < keep then i :: toShed p budget rest (keep - p.slots[i].floorOf) else []

/-- F_keep (R111). -/
def Pal.floorsKept (p : Pal) : Nat := (allSlots.map fun i => p.slots[i].kept).sum

/-- F (R110). -/
def Pal.floors (p : Pal) : Nat := (allSlots.map fun i => p.slots[i].committed).sum

/-- The slots a computation sheds. -/
def shedList (p : Pal) (budget : Int) : List Slot := toShed p budget (shedClass p 2 ++ shedClass p 1) p.floorsKept

/-- The modules a computation admits, and the headroom left (R112). -/
def admitModules (s : State) (h : Int) : List UplinkBay × Int :=
  if s.pal.admits? && !s.pal.deficit && !s.pal.unsettled then
    allUplinks.foldl (fun (l, h) b =>
      let w : Int := s.ulc.bays[b].figures.power
      if s.pal.modules[b] == .off && !s.pal.handedOver[b] && w ≤ h then (l ++ [b], h - w) else (l, h)) ([], h)
  else ([], h)

/-- How the walk of the admission queue ends (R113): the slots admitted, the headroom left, and the slot it stopped at. -/
structure AdmitWalk where
  admitted : List Slot
  left : Int
  stopped : Option Slot
deriving DecidableEq, Repr

/-- The walk of the admission queue (R113). A slot without an active profile stops it. -/
def admitWalk (p : Pal) : List QueuePlace → Int → AdmitWalk
  | [], h => { admitted := [], left := h, stopped := none }
  | q :: rest, h =>
    match p.slots[q.slot].plan with
    | none => { admitted := [], left := h, stopped := some q.slot }
    | some plan =>
      let need : Int := (plan.floor : Int) - p.slots[q.slot].allowance
      if need ≤ h then
        let w := admitWalk p rest (h - need)
        { w with admitted := q.slot :: w.admitted }
      else { admitted := [], left := h, stopped := some q.slot }

/-- Blade admission (R113). -/
def admitBlades (p : Pal) (h : Int) : AdmitWalk :=
  if p.admits? && !p.deficit then admitWalk p p.queue h else { admitted := [], left := h, stopped := none }

/-- Bits 0–15 of ADMISSION_BLOCKED's detail: f − s, free where f is below s (notes/assumptions/20.md), and free for a slot that has no
active profile and so no f (DESIGN CHOICE, notes/assumptions/44.md). -/
def blockedBits (a : Alloc) : Word :=
  match a.plan with
  | some p => if a.allowance ≤ p.floor then putField 0 (p.floor - a.allowance) else (Config.blockedNeed (a.allowance - p.floor)).setWidth 32
  | none => (Config.blockedWithoutFloor a.allowance).setWidth 32

/-- The walk stopped at a slot: a new one raises ADMISSION_BLOCKED (R113). It stops too at a queued slot that has no active profile, such as
one adopted READY by a VALID entry that holds none: that such a slot does not fit, and the bits that stand for its f − s, are the model's
(DESIGN CHOICE, notes/assumptions/44.md). -/
def noteBlocked (w : AdmitWalk) (s : State) : State :=
  match w.stopped with
  | none => s
  | some i =>
    if s.pal.blockedHead = some i then s
    else
      let a := s.pal.slots[i]
      let s := raise .admissionBlocked (.slot i) (blockedBits a ||| putField 16 w.left.toNat) s
      s.updPal fun p => { p with blockedHead := some i }

/-- Does a slot take part in the distribution, `admits` being the slots the computation admits (R114)? -/
def takesPart (p : Pal) (admits : List Slot) (i : Slot) : Bool :=
  let a := p.slots[i]
  (a.standing == .admitted || admits.contains i) && a.plan.isSome && !a.departing && !a.shed

/-- A slot's want (R114). -/
def wantOf (p : Pal) (i : Slot) : Nat := p.slots[i].inUse - p.slots[i].floorOf

/-- The extras of the classes in order, and the headroom left (R114). `scaled`: an earlier class was scaled. -/
def distribute (p : Pal) (admits : List Slot) : List Nat → Bool → Int → List (Slot × Nat) × Int
  | [], _, h => ([], h)
  | k :: rest, scaled, h =>
    let members := allSlots.filter fun i => takesPart p admits i && p.slots[i].cls == k
    let total := (members.map (wantOf p)).sum
    let extra (i : Slot) : Nat :=
      if scaled || h ≤ 0 || total = 0 then 0
      else if (total : Int) ≤ h then 5 * (wantOf p i / 5)
      else 5 * (wantOf p i * h.toNat / (5 * total))
    let given := members.map fun i => (i, extra i)
    let left : Int := h - ((given.map (·.2)).sum : Nat)
    let next := distribute p admits rest (scaled || (0 < h && h < (total : Int))) left
    (given ++ next.1, next.2)

/-- A slot's target (R115). -/
def targetOf (p : Pal) (admits : List Slot) (extras : List (Slot × Nat)) (i : Slot) : Nat :=
  let a := p.slots[i]
  if a.standing == .admitted || admits.contains i then a.floorOf + ((extras.find? fun e => e.1 == i).map (·.2)).getD 0
  else match a.standing with
    | .standby => a.allowance
    | _ => 0

/-- The image words of the chassis figures of a computation: headroom, stranded watts and B (R115). -/
def budgetOff : Nat := 0x108
def headroomOff : Nat := 0x109
def strandedOff : Nat := 0x10A

/-- A slot's summary word (R103). -/
def summaryOff (i : Slot) : Nat := recordOff i 16

/-- The word of a slot record that holds the adopted marker (section 1.13). -/
def markerOff (i : Slot) : Nat := recordOff i 25

/-- Does a slot lose its adopted marker between two states? -/
def losesMarker (s t : State) (i : Slot) : Bool := s.pal.slots[i].adopted && !t.pal.slots[i].adopted

/-- The words that hold the markers cleared between two states: a pass that clears a marker publishes it (R117, R121). -/
def clearedMarkers (s t : State) : List Nat := (allSlots.filter (losesMarker s t)).map markerOff

/-- A slot is marked to shed: its request, and SLOT_SHED (R111, R117). -/
def shedSlot (i : Slot) (s : State) : State :=
  let a := s.pal.slots[i]
  raise .slotShed (.slot i) (putField 0 a.cls ||| putField 16 a.floorOf) (s.push (.ssqShed i))

/-- Every request in use is formed again (R107). -/
def formUses (s : State) : State := forEach allSlots (fun i s => s.updAlloc i Alloc.formUse) s

/-- The slots a computation marks to shed (R111). -/
def markShed (shed : List Slot) (s : State) : State := forEach shed (fun i s => s.updAlloc i fun a => { a with shed := true }) s

/-- Distribution and the targets (R114, R115). -/
def setTargets (w : AdmitWalk) (modules : List UplinkBay) (s : State) : State :=
  let d := distribute s.pal w.admitted [0, 1, 2] false w.left
  (forEach allSlots (fun i s => s.updAlloc i fun a => { a with target := targetOf s.pal w.admitted d.1 i }) s).updPal fun p =>
    { p with admits := w.admitted, moduleAdmits := modules, headroom := d.2, stranded := d.2.toNat }

/-- Module admission and blade admission, then the targets (R112, R113). -/
def admitAll (budget : Int) (s : State) : State :=
  let m := admitModules s (budget - s.pal.floors)
  let w := admitBlades s.pal m.2
  setTargets w m.1 (noteBlocked w s)

/-- The computation of a pass (6.3): shedding, module admission, blade admission, distribution and the targets. -/
def compute (s : State) : State :=
  let shed := shedList (formUses s).pal s.pal.budget
  forEach shed shedSlot (admitAll s.pal.budget (markShed shed (formUses s)))

/-! ## Passes (6.4) -/

/-- An epoch one on (R103: it wraps). -/
def nextEpoch (n : Nat) : Nat := (n + 1) % 256

/-- The reduction of one slot at the publication of a pass (R117, R118). The deadline starts once the grant update is in the
write-back queue. -/
def Alloc.reduce (deficit : Bool) (a : Alloc) : Alloc :=
  if a.standing == .admitted then
    let a := if a.target < a.grant then
        { a with grant := a.target, epoch := nextEpoch a.epoch, deadline := if a.unsettled then a.deadline else none, unsettled := true }
      else a
    let a := if a.adopted && a.plan.isSome && a.target ≤ a.grant then { a with adopted := false } else a
    if deficit then a.throttled else a
  else a

/-- A pass publishes in these image words in the event under way (R123): what it posts is what they then give. -/
def notePosts (offs : List Nat) (s : State) : State :=
  s.updPal fun p => { p with posting := p.posting ++ offs.filter fun o => !p.posting.contains o }

/-- A pass starts, or starts again: its computation and its publication (R116, R117). The three chassis figures are posted at
every computation (R115). A pass abandoned in RAISE has nothing left that R116's restart could discard: RAISE takes its increases,
admissions and power-ons, and posts them, in its one event, so they stand (DESIGN CHOICE, notes/assumptions/39.md). DEFICIT is evaluated
after the computation and the reductions: 6.5 says so of a fall of B, and a rise of the committed floors is treated alike (DESIGN CHOICE,
notes/assumptions/41.md). -/
def startPass (s : State) : State :=
  let s := compute (s.updPal fun p =>
    { p with pass := .reduce, passPending := false, discarded := false, admits := [], moduleAdmits := [], posting := [], posted := [] })
  let fallen := allSlots.filter fun i => s.pal.slots[i].standing == .admitted && s.pal.slots[i].target < s.pal.slots[i].grant
  let t := forEach allSlots (fun i s => s.updAlloc i (Alloc.reduce s.pal.deficit)) s
  let figures := [budgetOff, headroomOff, strandedOff]
  let s := notePosts (figures ++ fallen.map summaryOff ++ clearedMarkers s t) (forEach figures (fun o s => s.forceWord o) t)
  evalDeficit s

/-- A pass trigger (R116). -/
def trigger (s : State) : State := s.updPal fun p => { p with passPending := true }

/-- An increase of one slot at RAISE (R121, R125). -/
def Alloc.increase (a : Alloc) : Alloc :=
  let clears : Bool := match a.overdrawLevel with
    | some d => d ≤ a.target
    | none => false
  { a with
    grant := a.target, epoch := nextEpoch a.epoch, inForce := a.target
    adopted := a.adopted && a.plan.isNone
    causes := { a.causes with overdraw := a.causes.overdraw && !clears }
    overdrawLevel := if clears then none else a.overdrawLevel }

/-- The admission queue without a slot; its blocked-head record goes with it (R106, R113). -/
def leaveQueue (i : Slot) (s : State) : State :=
  s.updPal fun p =>
    { p with
      queue := p.queue.filter fun q => q.slot != i
      blockedHead := if p.blockedHead = some i then none else p.blockedHead }

/-- One admission at RAISE, a change of standing and of the queue, and so a trigger (R104, R116, R121). Whether the slot is still in the
queue is looked at here alone: one that has left it since the computation and joined it again is admitted (DESIGN CHOICE,
notes/assumptions/33.md). -/
def admitSlot (i : Slot) (s : State) : State :=
  if s.pal.admits? && s.pal.queue.any (fun q => q.slot == i) then
    let n := s.pal.counter + 1
    let s := (leaveQueue i s).updPal fun p => { p with counter := n }
    let s := s.updAlloc i fun a =>
      { a with standing := .admitted, sequence := some n, grant := a.target, epoch := nextEpoch a.epoch, inForce := a.target }
    (notePosts [summaryOff i] (trigger s)).push (.ssqAdmit i)
  else s

/-- One module power-on at RAISE, for a module that is OFF here, also one that has left OFF and come back since the computation (R121;
DESIGN CHOICE, notes/assumptions/33.md). -/
def admitModule (b : UplinkBay) (s : State) : State :=
  if s.pal.admits? && s.pal.modules[b] == .off then
    (s.updPal fun p => { p with handedOver := p.handedOver.set b true }).push (.ulcPowerOn b)
  else s

/-- L and B as they now stand (R109). -/
def formLoad (s : State) : State :=
  let l := loadOf s
  s.updPal fun p => { p with load := l, budget := (p.available : Int) - l }

/-- RAISE (R121): the module power is taken into L here; this rise of L restarts no pass (R109), and is a trigger (R116). The
targets are those of the pass's computation: R108 and R116 restart it only where an effective cap falls below a published grant, so
a target that stands above a cap fallen meanwhile is published as it is (DESIGN CHOICE, notes/assumptions/26.md). -/
def enterRaise (s : State) : State :=
  let raised := allSlots.filter fun i => s.pal.slots[i].standing == .admitted && s.pal.slots[i].grant < s.pal.slots[i].target
  let t := forEach raised (fun i s => s.updAlloc i Alloc.increase) (s.updPal fun p => { p with pass := .raise })
  let s := notePosts (raised.map summaryOff ++ clearedMarkers s t) t
  let s := forEach s.pal.admits admitSlot s
  let s := forEach s.pal.moduleAdmits admitModule s
  let s := s.updPal fun p => { p with admits := [], moduleAdmits := [] }
  let old := s.pal.load
  let s := evalDeficit (formLoad s)
  onlyIf (s.pal.load != old) trigger s

/-- Is a pass in REDUCE with no reduction unsettled, and not yet on its way to IDLE or RAISE? -/
def Pal.reduced (p : Pal) : Bool := p.pass == .reduce && !p.discarded && !p.unsettled

/-- A pass in REDUCE with no reduction unsettled goes to RAISE, or completes without it while DEFICIT is set (R121). -/
def proceedPass (s : State) : State :=
  if s.pal.deficit then s.updPal fun p => { p with discarded := true, admits := [], moduleAdmits := [] } else enterRaise s

/-- Has the PAL a pending pass to start, none being in flight (R116)? -/
def Pal.due (p : Pal) : Bool := p.passPending && p.pass == .idle

/-- May a pass start or go on: does nothing of the PAL wait, and is the event not carried out part by part (R38, R123)? -/
def palFree (s : State) : Bool := s.later.isNone && !s.holds .pal

/-- Is a pass to start once the hand-overs have been carried out? -/
def passDue (s : State) : Bool := s.pal.due && palFree s

/-- Is a pass in REDUCE to go on? -/
def passMoves (s : State) : Bool := s.pal.reduced && palFree s

/-- The PAL starts a pending pass. -/
def palTurn (s : State) : State := if passDue s then startPass s else s

/-- The PAL starts a pending pass, or the pass in REDUCE goes on: one turn of it by itself (R38). -/
def palMove (s : State) : State :=
  if s.pal.due then startPass s else if s.pal.reduced then proceedPass s else s

/-- Is the pass in flight complete (R123)? -/
def passDone (s : State) : Bool :=
  (s.pal.pass == .raise || (s.pal.pass == .reduce && s.pal.discarded)) && s.pal.posted.isEmpty && s.pal.posting.isEmpty

/-- The WRA reports the last entry of the pass performed (R123). -/
def passComplete (s : State) : State :=
  if passDone s then s.updPal fun p => { p with pass := .idle, discarded := false } else s

/-- L and B are formed again (R109): a fall of B starts or restarts a pass, any other change is a trigger (R116). -/
def recomputeLoad (s : State) : State :=
  let old := s.pal
  let s := formLoad s
  if s.pal.budget < old.budget then startPass s
  else
    let s := evalDeficit s
    if s.pal.load = old.load && s.pal.budget = old.budget then s else trigger s

/-! ## What the PAL takes -/

/-- A set of causes for a slot that gains STANDBY standing (R104, R126). -/
def Alloc.takeStanding (factor : Nat) (a : Alloc) : Alloc :=
  { a with causes := { a.causes with coolingLost := factor == 0, forced := a.forced } }

/-- What a slot leaving ADMITTED loses (R104). -/
def Alloc.leaveAdmitted (a : Alloc) : Alloc :=
  { a with
    grant := 0, epoch := nextEpoch a.epoch, unsettled := false, deadline := none
    causes := { a.causes with deficit := false, lateReduce := false, overdraw := false }, overdrawLevel := none
    shed := false, sequence := none, adopted := false }

/-- A slot whose standing becomes NONE (R104). -/
def Alloc.leaveAll (a : Alloc) : Alloc :=
  { a with
    standing := .none, grant := 0, epoch := if 0 < a.grant then nextEpoch a.epoch else a.epoch, inForce := 0, target := 0
    unsettled := false, deadline := none, causes := Causes.empty, overdrawLevel := none, shed := false, sequence := none
    adopted := false }

/-- An entry after a change of standing (R104). A rise to ADMITTED is made by the PAL's own admission. -/
def Alloc.changeStanding (factor : Nat) (new : Standing) (a : Alloc) : Alloc :=
  match a.standing, new with
  | .none, .standby => { a.takeStanding factor with standing := .standby, inForce := a.allowance, target := a.allowance }
  | .admitted, .standby => { a.leaveAdmitted with standing := .standby, inForce := a.allowance, target := a.allowance }
  | .standby, .none | .admitted, .none => a.leaveAll
  | _, new => { a with standing := new }

/-- An entry of a slot that has become EMPTY, the settings copies kept. Its epoch is R103's 0, also where R104 and R122 would raise
it for an ADMITTED slot (DESIGN CHOICE, notes/assumptions/27.md). -/
def Alloc.emptied (allowance : Nat) (a : Alloc) : Alloc :=
  { Alloc.cleared allowance with cls := a.cls, forced := a.forced, reclaim := a.reclaim }

/-- Does queue place `a` stand ahead of `b` (R106)? -/
def queueBefore (p : Pal) (a b : QueuePlace) : Bool :=
  p.slots[a.slot].cls < p.slots[b.slot].cls || (p.slots[a.slot].cls == p.slots[b.slot].cls && a.joined < b.joined)

/-- A place put where class and joining time give (R106). -/
def insertPlace (p : Pal) (q : QueuePlace) : List QueuePlace → List QueuePlace
  | [] => [q]
  | r :: rest => if queueBefore p q r then q :: r :: rest else r :: insertPlace p q rest

/-- A slot joins the admission queue (R106). -/
def joinQueueAt (i : Slot) (s : State) : State :=
  if s.pal.queue.any fun q => q.slot == i then s
  else trigger (s.updPal fun p =>
    { p with queue := insertPlace p { slot := i, joined := p.joins } p.queue, joins := p.joins + 1 })

/-- A rise of the committed floors starts or restarts a pass, which evaluates DEFICIT after its computation (DESIGN CHOICE,
notes/assumptions/41.md); anything else is a trigger (R105, R116). -/
def restartIf (risen : Bool) (s : State) : State := if risen then startPass s else trigger (evalDeficit s)

/-- An entry after a report of the slot's state (R103, R104). -/
def Alloc.reported (st : SlotState) (factor default : Nat) (a : Alloc) : Alloc :=
  if st = .empty then a.emptied default else { a.changeStanding factor (standingOf st) with state := st }

/-- The SSQ reports a slot's state (R43, R104, R106): a trigger where it changes the standing, the queue, or, for a slot that has become
EMPTY, the slot's s or its active profile (R116). -/
def takePalState (i : Slot) (st : SlotState) (s : State) : State :=
  let a := s.pal.slots[i]
  let new := standingOf st
  let b := a.reported st s.pal.factors[zoneOf i] s.pal.defaultAllowance
  let queued := s.pal.queue.any fun q => q.slot == i
  let s := s.updAlloc i fun _ => b
  let s := if st = .admitWait then joinQueueAt i s else if queued then trigger (leaveQueue i s) else s
  if a.standing = new then onlyIf (b.plan != a.plan || b.allowance != a.allowance) trigger s
  else restartIf (new == .standby && a.committed < b.committed) s

/-- s changes for one slot; one of STANDBY standing has it in force at once (R105). -/
def Alloc.setAllowance (w : Nat) (a : Alloc) : Alloc :=
  if a.standing = .standby then { a with allowance := w, inForce := w } else { a with allowance := w }

/-- Does giving a slot the allowance `w` raise the committed floors (R105)? -/
def Alloc.risesWith (w : Nat) (a : Alloc) : Bool := a.standing == .standby && a.allowance < w

/-- A profile, or its absence, is handed over: a trigger where the slot's s or its profile changes, and a profile taken is one
(R77, R104, R105, R116). -/
def takePalProfile (i : Slot) (p : Option BladeProfile) (s : State) : State :=
  let old := s.pal.slots[i]
  let w := match p with
    | some b => b.standbyFloor
    | none => s.pal.defaultAllowance
  let s := s.updAlloc i fun a => { a with plan := p.map (planOf s.pal.factors[zoneOf i]) }.setAllowance w
  if p.isNone && old.plan.isNone && old.allowance == w then s else restartIf (old.risesWith w) s

/-- The watch notice of the default standby allowance: a trigger where some slot's s changes (R105, R116). -/
def takeDefaultAllowance (w : Nat) (s : State) : State :=
  let free := allSlots.filter fun i => s.pal.slots[i].plan.isNone
  let risen := free.any fun i => s.pal.slots[i].risesWith w
  let moved := free.any fun i => s.pal.slots[i].allowance != w
  let s := forEach free (fun i s => s.updAlloc i (Alloc.setAllowance w)) (s.updPal fun p => { p with defaultAllowance := w })
  if moved then restartIf risen s else s

/-- SILENT set or cleared (R107, R116). -/
def takePalSilent (i : Slot) (silent : Bool) (s : State) : State :=
  let s := s.updAlloc i fun a => { a with silent := silent }
  onlyIf s.pal.slots[i].reclaim trigger s

/-- The watch notice of the activity action (R107, R116). -/
def takePalAction (i : Slot) (reclaim : Bool) (s : State) : State :=
  let s := s.updAlloc i fun a => { a with reclaim := reclaim }
  onlyIf s.pal.slots[i].silent trigger s

/-- A new cooling factor of a slot's zone (R108, R126). -/
def Alloc.cool (factor : Nat) (a : Alloc) : Alloc :=
  { a with
    plan := a.plan.map fun p => { p with effCap := effectiveCap p.floor p.cap factor }
    causes := { a.causes with coolingLost := factor == 0 && a.standing != .none } }

/-- Is an ADMITTED slot's effective cap below its published grant? -/
def Alloc.overCap (a : Alloc) : Bool :=
  a.standing == .admitted && match a.plan with
    | some p => p.effCap < a.grant
    | none => false

/-- The CLC hands over a cooling factor (R108, R116, R126). A pass starts again where the fall takes some slot's effective cap from its
published grant or above to below it. A further fall for a slot whose cap already stood below its grant (adopted and just given a
profile, or as in notes/assumptions/26.md) is a trigger alone (DESIGN CHOICE, notes/assumptions/38.md). -/
def takeCooling (z : Zone) (factor : Nat) (s : State) : State :=
  let before := (zoneSlots z).filter fun i => s.pal.slots[i].overCap
  let s := forEach (zoneSlots z) (fun i s => s.updAlloc i (Alloc.cool factor))
    (s.updPal fun p => { p with factors := p.factors.set z factor })
  let after := (zoneSlots z).filter fun i => s.pal.slots[i].overCap
  if after.any fun i => !before.contains i then startPass s else trigger s

/-- The CLC hands over the fan reservation (R109). -/
def takeReservation (r : Nat) (s : State) : State := recomputeLoad (s.updPal fun p => { p with reservation := r })

/-- The PSM hands over available power (R109, R116). -/
def takeAvailable (w : Nat) (s : State) : State :=
  let old := s.pal.budget
  let s := recomputeLoad (s.updPal fun p => { p with available := w })
  if s.pal.budget < old then s else trigger s

/-- The ULC reports a module's state (R109, R122, R151). -/
def takePalModule (b : UplinkBay) (st : UplinkState) (s : State) : State :=
  let old := s.pal.budget
  let s := recomputeLoad (s.updPal fun p =>
    { p with modules := p.modules.set b st, handedOver := p.handedOver.set b false })
  if s.pal.budget < old then s else trigger s

/-- The watch notice of the base load (R109). -/
def takeBaseLoad (w : Nat) (s : State) : State := recomputeLoad (s.updPal fun p => { p with baseLoad := w })

/-- The MEU hands over the actual mode and the change-pending marker (R116). -/
def takePalMode (m : Mode) (pending : Bool) (s : State) : State :=
  trigger (s.updPal fun p => { p with mode := m, changePending := pending })

/-- The watch notice of the request field (R107, R116). -/
def takePalRequest (i : Slot) (w : Nat) (s : State) : State := trigger (s.updAlloc i fun a => { a with request := w })

/-- The watch notice of a slot's class; a queued slot moves to the place its class gives, a trigger where that reorders the queue
(R106, R116). -/
def takeClass (i : Slot) (k : Nat) (s : State) : State :=
  if s.pal.slots[i].cls = k then s
  else
    let s := s.updAlloc i fun a => { a with cls := k }
    match s.pal.queue.find? fun q => q.slot == i with
    | none => s
    | some q =>
      let moved := insertPlace s.pal q (s.pal.queue.filter fun r => r.slot != i)
      onlyIf (moved != s.pal.queue) trigger (s.updPal fun p => { p with queue := moved })

/-- The watch notice of a slot's forced throttle (R126). -/
def takeForced (i : Slot) (on : Bool) (s : State) : State :=
  s.updAlloc i fun a => { a with forced := on, causes := { a.causes with forced := on && a.standing != .none } }

/-- A reduction settles: the in-force becomes the grant, and the DEFICIT cause goes (R119, R120). -/
def Alloc.settle (late : Bool) (a : Alloc) : Alloc :=
  { a with
    inForce := a.grant, unsettled := false, deadline := none
    causes := { a.causes with deficit := false, lateReduce := a.causes.lateReduce || late } }

/-- A report within the grant removes LATE_REDUCE and OVERDRAW (6.6, R125). -/
def Alloc.within (a : Alloc) : Alloc :=
  { a with causes := { a.causes with lateReduce := false, overdraw := false }, overdrawLevel := none }

/-- A report above the grant (R125). -/
def Alloc.overdrawn (drawn : Nat) (a : Alloc) : Alloc :=
  { a with causes := { a.causes with overdraw := true }, overdrawLevel := some (max drawn (a.overdrawLevel.getD 0)) }

/-- The watch notice of a drawn report (R119, R125). -/
def takeDrawn (i : Slot) (drawn echo : Nat) (s : State) : State :=
  let a := s.pal.slots[i]
  if a.standing ≠ .admitted then s
  else if echo ≠ a.epoch then trigger s
  else if drawn ≤ a.grant then
    if a.unsettled then trigger (evalDeficit (s.updAlloc i fun a => (a.settle false).within))
    else trigger (s.updAlloc i Alloc.within)
  else if a.unsettled then trigger s
  else trigger (s.updAlloc i (Alloc.overdrawn drawn))

/-- The deadline of an unsettled reduction passes (R120). -/
def reduceDeadline (i : Slot) (s : State) : State :=
  if s.pal.slots[i].unsettled && s.pal.slots[i].deadline.isSome then evalDeficit (s.updAlloc i (Alloc.settle true)) else s

end Sys2Proof.Machine
end

