-- ==== Sys2Proof/Machine/Slots.lean ====
section
/-! DEFINITION. The Slot Sequencer (chapter 3): presence, the standby and main stages, the way down, faults, removal, and the
activity timer; and the link error count, whose state the SSQ copies (R31, R32). -/

namespace Sys2Proof.Machine

def SlotState.code : SlotState → Nat
  | .empty => 0
  | .detecting => 1
  | .held => 2
  | .standbyUp => 3
  | .identifying => 4
  | .ready => 5
  | .admitWait => 6
  | .mainUp => 7
  | .run => 8
  | .detach => 9
  | .mainDown => 10
  | .standbyDown => 11
  | .fault => 12

def FaultReason.code : FaultReason → Nat
  | .none => 0
  | .standbyPg => 1
  | .mainPg => 2
  | .identity => 3

/-! ## The link error count (2.4) -/

/-- The link-state field of the summary word (section 1.13). -/
def linkStateMask : Word := fieldMask 28 2

/-- The LEC and the link state are published, whether or not they differ from what was published before (R31, R32). -/
def publishLink (i : Slot) (s : State) : State := (s.forceWord (recordOff i 18)).force (recordOff i 16) linkStateMask

/-- A change of a link's LEC: the link state follows it, both are published, and the state is handed to the SSQ (R31). -/
def setLec (i : Slot) (n : Nat) (s : State) : State :=
  let s := onlyIf (s.links[i].lec != n) (publishLink i) s
  (s.updLink i fun l => { l with lec := n, state := linkStateOf n }).updSlot i fun q => { q with linkState := linkStateOf n }

/-- One error counted for a frame: 8 is added, and crossings are raised (R30, R31). -/
def countError (i : Slot) (s : State) : State :=
  let old := s.links[i].lec
  let n := min 255 (old + 8)
  let s := setLec i n s
  let s := onlyIf (old < 96 && 96 ≤ n) (raise .linkWarning (.slot i) (putField 0 n)) s
  let s := onlyIf (old < 128 && 128 ≤ n) (raise .linkRestricted (.slot i) (putField 0 n)) s
  onlyIf (old < 255 && n == 255) (raise .linkIsolated (.slot i) (putField 0 n)) s

/-- The LEC of a frame released without an error (R30). -/
def countGood (i : Slot) (s : State) : State := if s.links[i].lec = 0 then s else setLec i (s.links[i].lec - 1) s

/-- Clearing of a link: LEC 0 and NORMAL, both published, without an event (R32). -/
def clearLink (i : Slot) (s : State) : State := publishLink i (setLec i 0 s)

/-! ## The activity timer (3.12) -/

/-- The length of the activity timer in ticks (R63: the count × 8 s). -/
def SlotSeq.activityLength (q : SlotSeq) : Nat := q.activityCount * 8000

/-- The timer starts at full length, unless the count is 0 (R63). -/
def SlotSeq.startActivity (q : SlotSeq) : SlotSeq :=
  if q.activityCount = 0 then { q with activity := .stopped, activityTimer := none }
  else { q with activity := .watching, activityTimer := some q.activityLength }

/-- The timer stops and SILENT is cleared (R63). -/
def SlotSeq.stopActivity (q : SlotSeq) : SlotSeq := { q with activity := .stopped, activityTimer := none }

/-- The PAL is told of a change of SILENT (R63). -/
def tellSilent (i : Slot) (was : Bool) (s : State) : State :=
  let is := s.ssq.slots[i].activity == .silent
  if is == was then s else s.push (.palSilent i is)

/-- An activity notice of the SAL (R63, R33). -/
def takeActivity (i : Slot) (s : State) : State :=
  match s.ssq.slots[i].activity with
  | .stopped => s
  | .watching => s.updSlot i SlotSeq.startActivity
  | .silent => tellSilent i true (s.updSlot i SlotSeq.startActivity)

/-- The activity timer expires (R63). -/
def activityExpiry (i : Slot) (s : State) : State :=
  let q := s.ssq.slots[i]
  if q.activityTimer.isNone then s
  else
    let s := s.updSlot i fun q => { q with activity := .silent, activityTimer := none }
    tellSilent i false (raise .slotSilent (.slot i) (putField 0 (q.activityCount * 8)) s)

/-- The watch notice of the activity count (R64). -/
def takeActivityCount (i : Slot) (n : Nat) (s : State) : State :=
  let q := s.ssq.slots[i]
  let was := q.activity == .silent
  let s := s.updSlot i fun q => { q with activityCount := n }
  if n = 0 then tellSilent i was (s.updSlot i SlotSeq.stopActivity)
  else match q.activity with
    | .watching => s.updSlot i SlotSeq.startActivity
    | .stopped => if isTimed q.state then s.updSlot i SlotSeq.startActivity else s
    | .silent => s

/-- The watch notice of the activity action (R64). -/
def takeActivityAction (i : Slot) (reclaim : Bool) (s : State) : State :=
  whenFree (.palAction i reclaim) (takePalAction i reclaim) (s.updSlot i fun q => { q with reclaim := reclaim })

/-! ## State changes (R43, R44) -/

/-- The sequence timer of a state, from its setting (R44). -/
def Ssq.seqOf (q : Ssq) : SlotState → Option SeqTimer
  | .standbyUp => some { wait := .standbyTimeout, left := q.standbyTimeout * 10 }
  | .identifying => some { wait := .identity, left := q.identityTimeout * 1000 }
  | .mainUp => some { wait := .mainTimeout, left := q.mainTimeout * 10 }
  | .mainDown => some { wait := .mainDown, left := q.tDown * 20 }
  | .standbyDown => some { wait := .standbyDown, left := q.tDown * 20 }
  | _ => none

/-- T_up, in ticks. -/
def Ssq.stepLength (q : Ssq) : Nat := q.tUp * 10

/-- The debounce of the presence lines, in ticks (R41). -/
def Ssq.debounceLength (q : Ssq) : Nat := q.presenceDebounce * 10

/-- The activity timer over a change of state (R63). -/
def SlotSeq.retime (old new : SlotState) (q : SlotSeq) : SlotSeq :=
  if isTimed new then (if isTimed old then q else q.startActivity) else q.stopActivity

/-- What the ULC is told at a change of state (R43). -/
def tellUlc (i : Slot) (old new : SlotState) (s : State) : State :=
  match new with
  | .run => s.push (.ulcPlace i)
  | .detach => s.push (.ulcDetach i)
  | .fault => if isMember old then s.push (.ulcDrop i) else s
  | _ => s

/-- What the INV is told at a change of state, which it takes once the slot's entry is not held up (R43, R59, R68, R76, R79). -/
def tellInv (i : Slot) (new : SlotState) (s : State) : State :=
  match new with
  | .standbyUp | .ready | .empty => whenFree (.handOver (.invState i new)) (takeInvState i new) s
  | _ => s

/-- A change of a slot's state, `f` being the rest of the change: its timers, and the neighbours told (R43, R44). A slot that
leaves DETECTING for EMPTY before its arrival was reported does nothing else: the PAL's standing for it is NONE already (R42).
The PAL takes the report before the profile that the INV hands over at it (R105). -/
def setSlot (i : Slot) (new : SlotState) (f : SlotSeq → SlotSeq) (s : State) : State :=
  let q := s.ssq.slots[i]
  let old := q.state
  let was := q.activity == .silent
  let q := f ({ q with state := new, seq := s.ssq.seqOf new }.retime old new)
  let q := if new = .detecting then { q with debounce := some s.ssq.debounceLength } else q
  let unreported := old == .detecting && new == .empty && !s.ssq.slots[i].arrived
  let s := s.updSlot i fun _ => q
  let s := (if unreported then s else s.push (.palState i new)).push .meuReport
  let s := tellInv i new s
  let s := if isMember old == isMember new then s else s.push (.clcMember i (isMember new))
  tellSilent i was (tellUlc i old new s)

/-- No hold and no down cause. -/
def SlotSeq.free (q : SlotSeq) : SlotSeq := { q with abortHold := false, shedHold := false, downCause := none }

/-- May a READY slot enter ADMIT_WAIT (R49)? -/
def mayWait (s : State) (i : Slot) : Bool :=
  let q := s.ssq.slots[i]
  q.state == .ready && q.request != 0 && q.enabled && s.meu.actual != .quiesce && !q.abortHold && !q.shedHold &&
    q.linkState == .normal

/-- The conditions of R49 are examined. -/
def examine (i : Slot) (s : State) : State := if mayWait s i then setSlot i .admitWait id s else s

/-- Entry to READY: the holds of the down cause (R51), the promotion (R79), and R49. -/
def enterReady (i : Slot) (s : State) : State :=
  examine i (setSlot i .ready (fun q =>
    { q with
      abortHold := q.abortHold || q.downCause == some .abort, shedHold := q.shedHold || q.downCause == some .shed
      downCause := none }) s)

/-- Is the slot's inventory entry VALID? -/
def entryValid (s : State) (i : Slot) : Bool := (s.bladeEntry i).state == .valid

/-- Entry to IDENTIFYING; a slot whose entry is VALID passes to READY at once (R46). -/
def enterIdentifying (i : Slot) (s : State) : State :=
  let s := setSlot i .identifying (fun q => { q with downCause := none }) s
  if entryValid s i then enterReady i s else s

/-- Entry to STANDBY_UP, MAIN_UP and STANDBY_DOWN (R45, R52, R56). -/
def enterStandbyUp (i : Slot) (s : State) : State := setSlot i .standbyUp id s
def enterMainUp (i : Slot) (s : State) : State := setSlot i .mainUp id s
def enterStandbyDown (i : Slot) (s : State) : State := setSlot i .standbyDown SlotSeq.free s

/-- Entry to FAULT (R57). -/
def enterFault (i : Slot) (r : FaultReason) (s : State) : State :=
  raise .slotFault (.slot i) (putField 0 r.code) (setSlot i .fault (fun q => { q.free with reason := r }) s)

/-- A down cause acts on a slot that has, or waits for, main power (R50, R52, R53). -/
def goDown (i : Slot) (c : DownCause) (s : State) : State :=
  let mark (q : SlotSeq) : SlotSeq := { q with downCause := some c }
  match s.ssq.slots[i].state with
  | .admitWait => enterReady i (s.updSlot i mark)
  | .mainUp => setSlot i .mainDown mark s
  | .run => setSlot i .detach mark s
  | _ => s

/-- Abort and shed replace the down cause of a slot on its way down (R54, R55). -/
def renewCause (i : Slot) (c : DownCause) (s : State) : State :=
  match s.ssq.slots[i].state with
  | .detach | .mainDown => s.updSlot i fun q => { q with downCause := some c }
  | _ => s

/-- A disable or an opened latch, with its down cause (R47). -/
def takeOut (i : Slot) (c : DownCause) (s : State) : State :=
  match s.ssq.slots[i].state with
  | .standbyUp | .identifying | .ready | .admitWait => enterStandbyDown i s
  | .mainUp | .run => goDown i c s
  | _ => s

/-! ## Presence (3.2, 3.10) -/

/-- The reading of PRES and LATCH (3.2). -/
def readingOfLines (pres latch : Bool) : Reading :=
  match pres, latch with
  | false, false => .absent
  | true, false => .unlatched
  | true, true => .seated
  | false, true => .invalid

/-- PRES and LATCH as read at a tick (R41, R42). -/
def readPresence (i : Slot) (pres latch : Bool) (s : State) : State :=
  let r := readingOfLines pres latch
  if s.ssq.slots[i].raw = r then s
  else
    let s := s.updSlot i fun q => { q with raw := r, debounce := some s.ssq.debounceLength }
    if s.ssq.slots[i].state == .empty && (r == .unlatched || r == .seated) then setSlot i .detecting id s else s

/-- The report of an arrival (R42). -/
def reportArrival (i : Slot) (r : Reading) (s : State) : State :=
  if s.ssq.slots[i].arrived then s
  else
    raise .slotInserted (.slot i) (putField 0 (if r = .seated then 2 else 1))
      (s.updSlot i fun q => { q with arrived := true, inserted := s.now })

/-- The values the S fields take when a slot becomes EMPTY (R22). -/
def clearSlotWords (i : Slot) (s : State) : State :=
  let record := (List.range 15).map fun k => ({ off := recordOff i k, kind := .whole (recordDefault k) } : Update)
  let commit : Update := { off := recordOff i 15, kind := .fields commitMask 0#32 }
  let fru := (List.range 64).map fun k => ({ off := fruOff i k, kind := .whole 0#32 } : Update)
  forEach (record ++ [commit] ++ fru) (fun u s => s.offer u) s

/-- A slot's part of the SSQ when it becomes EMPTY: the settings copies are kept (R59). -/
def SlotSeq.emptied (q : SlotSeq) : SlotSeq :=
  { q.free.stopActivity with
    arrived := false, reason := .none, request := 0, verdict := .none, inserted := Stamp.zero, debounce := none }

/-- The slot becomes EMPTY, and its neighbours clear their parts (R43, R59). -/
def becomeEmpty (i : Slot) (s : State) : State :=
  ((whenFree (.salClear i) (clearLink i) (setSlot i .empty SlotSeq.emptied s)).push (.ulcEmpty i)).push (.clcEmpty i)

/-- Removal (R59). -/
def removal (i : Slot) (s : State) : State :=
  let old := s.ssq.slots[i].state
  raise .slotRemoved (.slot i) (putField 0 old.code) (clearSlotWords i (becomeEmpty i s))

/-- A debounce expiry in DETECTING (R42). -/
def detectingExpiry (i : Slot) (r : Reading) (s : State) : State :=
  match r with
  | .seated =>
    let s := reportArrival i r s
    if s.ssq.slots[i].enabled then enterStandbyUp i s else setSlot i .held id s
  | .unlatched => reportArrival i r s
  | _ => if s.ssq.slots[i].arrived then removal i s else setSlot i .empty id s

/-- The presence debounce of a slot expires (R41, R42, R47, R59). -/
def presenceExpiry (i : Slot) (s : State) : State :=
  let q := s.ssq.slots[i]
  if q.debounce.isNone then s
  else
    let r := if q.raw = .invalid then .absent else q.raw
    let s := s.updSlot i fun q => { q with debounce := none, debounced := r }
    if q.state = .detecting then detectingExpiry i r s
    else if q.debounced = r then s
    else match r with
      | .absent => if q.state = .empty then s else removal i s
      | .unlatched =>
        if q.debounced != .seated then s
        else if q.state = .held then setSlot i .detecting id s
        else takeOut i .extraction s
      | _ => s

/-- The watch notice of the enable setting (R47). -/
def takeEnable (i : Slot) (on : Bool) (s : State) : State :=
  let q := s.ssq.slots[i]
  if q.enabled = on then s
  else
    let s := s.updSlot i fun q => { q with enabled := on }
    if on then (if q.state = .held then enterStandbyUp i s else s) else takeOut i .disable s

/-! ## The standby and main stages (3.5, 3.8) -/

/-- A slot's sequence timer runs for this wait. -/
def SlotSeq.waits (q : SlotSeq) (w : SeqWait) : Bool :=
  match q.seq with
  | some t => t.wait == w
  | none => false

/-- SBY_PG reads good (R45). -/
def readSbyPgGood (i : Slot) (s : State) : State :=
  s.updSlot i fun q =>
    { q with
      sbyPg := true
      seq := if q.waits .standbyTimeout then some { wait := .standbyStep, left := s.ssq.stepLength } else q.seq }

/-- Is SBY_PG watched for a loss in this state (R45, R46, R50, R52–R55, R57)? -/
def watchesSby (q : SlotSeq) : Bool :=
  match q.state with
  | .standbyUp => q.waits .standbyStep
  | .identifying | .ready | .admitWait | .mainUp | .run | .detach | .mainDown => true
  | _ => false

/-- SBY_PG reads bad (R57). -/
def readSbyPgBad (i : Slot) (s : State) : State :=
  let q := s.ssq.slots[i]
  let s := s.updSlot i fun q => { q with sbyPg := false }
  if q.sbyPg && watchesSby q then enterFault i .standbyPg s else s

/-- MAIN_PG reads good (R52). -/
def readMainPgGood (i : Slot) (s : State) : State :=
  s.updSlot i fun q =>
    { q with
      mainPg := true
      seq := if q.waits .mainTimeout then some { wait := .mainStep, left := s.ssq.stepLength } else q.seq }

/-- Is MAIN_PG watched for a loss in this state (R52–R54)? -/
def watchesMain (q : SlotSeq) : Bool :=
  match q.state with
  | .mainUp => q.waits .mainStep
  | .run | .detach => true
  | _ => false

/-- MAIN_PG reads bad (R52–R54, R57). -/
def readMainPgBad (i : Slot) (s : State) : State :=
  let q := s.ssq.slots[i]
  let s := s.updSlot i fun q => { q with mainPg := false }
  if q.mainPg && watchesMain q then enterFault i .mainPg s else s

/-- The standby timeout expires (R45). -/
def standbyTimeout (i : Slot) (s : State) : State :=
  if s.ssq.slots[i].waits .standbyTimeout then enterFault i .standbyPg s else s

/-- T_up expires in STANDBY_UP (R45). -/
def standbyStep (i : Slot) (s : State) : State :=
  if s.ssq.slots[i].waits .standbyStep then enterIdentifying i s else s

/-- The identity timeout expires (R46). -/
def identityTimeout (i : Slot) (s : State) : State :=
  if s.ssq.slots[i].waits .identity then enterFault i .identity s else s

/-- The main timeout expires (R52). -/
def mainTimeout (i : Slot) (s : State) : State :=
  if s.ssq.slots[i].waits .mainTimeout then enterFault i .mainPg s else s

/-- T_up expires in MAIN_UP (R52, R53). -/
def mainStep (i : Slot) (s : State) : State :=
  if s.ssq.slots[i].waits .mainStep then setSlot i .run id s else s

/-- T_down expires in MAIN_DOWN (R55). -/
def mainDownEnd (i : Slot) (s : State) : State :=
  let q := s.ssq.slots[i]
  if q.waits .mainDown then
    if q.debounced == .unlatched || !q.enabled then enterStandbyDown i s
    else if entryValid s i then enterReady i s
    else enterIdentifying i s
  else s

/-- T_down expires in STANDBY_DOWN (R56). -/
def standbyDownEnd (i : Slot) (s : State) : State :=
  let q := s.ssq.slots[i]
  if q.waits .standbyDown then
    if !q.enabled && q.debounced == .seated then setSlot i .held id s else setSlot i .detecting id s
  else s

/-- A verdict the INV reports (R45, R46). -/
def takeSlotVerdict (i : Slot) (valid : Bool) (s : State) : State :=
  let s := s.updSlot i fun q => { q with verdict := if valid then .valid else .rejected }
  if valid && s.ssq.slots[i].state == .identifying then enterReady i s else s

/-- The PAL's admission (R50). One sent to a slot that is held up by a full write-back queue is taken later (R38), whatever DEFICIT and the
reductions are by then: the slot then enters MAIN_UP although the law of raising of R121 would let the PAL admit nothing at that moment
(DESIGN CHOICE, notes/assumptions/45.md). -/
def takeAdmission (i : Slot) (s : State) : State :=
  if s.ssq.slots[i].state = .admitWait then enterMainUp i s else s

/-- A shed request (R62). -/
def takeShed (i : Slot) (s : State) : State :=
  match s.ssq.slots[i].state with
  | .run | .mainUp => goDown i .shed s
  | _ => renewCause i .shed s

/-- Detach done (R54). -/
def takeDetachDone (i : Slot) (s : State) : State :=
  if s.ssq.slots[i].state = .detach then setSlot i .mainDown id s else s

/-- The watch notice of the request field (R48–R50, R52, R53). -/
def takeSlotRequest (i : Slot) (w : Nat) (s : State) : State :=
  let s := s.updSlot i fun q => { q with request := w, abortHold := false, shedHold := false }
  let s := examine i s
  if w = 0 then goDown i .request s else s

/-- A change of the actual mode, for one slot (R49, R60). -/
def takeModeAt (i : Slot) (old new : Mode) (s : State) : State :=
  if new = .quiesce then goDown i .quiesce s else if old = .quiesce then examine i s else s

/-- A change of the actual mode. The slots take it in slot order, 1 to 16: R60 and R106 give no order in which the READY slots
examined in one event join the admission queue (DESIGN CHOICE, notes/assumptions/24.md). -/
def takeSlotMode (old new : Mode) (s : State) : State :=
  forEach allSlots (fun i => whenFree (.handOver (.ssqModeAt i old new)) (takeModeAt i old new)) s

/-- The abort command, for one slot (R61). -/
def takeAbortAt (i : Slot) (s : State) : State :=
  match s.ssq.slots[i].state with
  | .detach | .mainDown => renewCause i .abort s
  | _ => goDown i .abort s

/-- The abort command (R61). -/
def takeSlotAbort (s : State) : State := forEach allSlots (fun i => whenFree (.handOver (.ssqAbortAt i)) (takeAbortAt i)) s

/-- The fault-clear command (R58). -/
def faultClear (i : Slot) (s : State) : State :=
  if s.ssq.slots[i].state = .fault then setSlot i .detecting (fun q => { q with reason := .none }) s else s

/-- The watch notice of the locate setting (R66). -/
def takeLocate (i : Slot) (on : Bool) (s : State) : State := s.updSlot i fun q => { q with locate := on }

end Sys2Proof.Machine
end

