-- ==== Sys2Proof/Machine/Links.lean ====
section
/-! DEFINITION. The Slot Access Links (2.2, 2.3, 2.5): the frame decoder byte by byte, delivery units, the write buffer, and the
end of a frame. -/

namespace Sys2Proof.Machine

/-- The command of a command byte (section 1.13). -/
def frameCommandOf (b : Byte) : Option FrameCommand :=
  if b = 0xA1#8 then some .fetch
  else if b = 0xA2#8 then some .store
  else if b = 0xA4#8 then some .merge
  else if b = 0xA8#8 then some .peek
  else none

/-- The command byte of a command. -/
def FrameCommand.byte : FrameCommand → Byte
  | .fetch => 0xA1#8
  | .store => 0xA2#8
  | .merge => 0xA4#8
  | .peek => 0xA8#8

/-- The two offset bytes of a frame's header, most significant first. -/
def offsetBytes (off : BitVec 16) : List Byte := [(off >>> 8).setWidth 8, off.setWidth 8]

/-- A frame just begun. -/
def Frame.start (c : FrameCommand) (disregarded : Bool) : Frame :=
  { disregarded := disregarded, command := c, header := 0, offset := 0, part := [], complete := false, errored := false,
    overrun := false, unit := [], answer := none }

def State.updFrame (s : State) (i : Slot) (f : Frame → Frame) : State :=
  s.updLink i fun l => { l with frame := l.frame.map f }

/-- The window offset after this one, wrapping from 0x3FF to 0x000 (R26, R27). -/
def nextOffset (o : Nat) : Nat := (o + 1) % 1024

/-! ## Reads (R26) -/

/-- The SAL requests the read of a frame's next word; an unmapped or unassigned word is answered with zero at once (R26, R1). -/
def requestWord (i : Slot) (s : State) : State :=
  match s.links[i].frame with
  | none => s
  | some f =>
    let s := if f.command = .fetch then s.updFrame i fun f => { f with offset := nextOffset f.offset } else s
    let target := if f.command = .fetch then windowOff i f.offset else some (recordOff i 16)
    match target with
    | none => s.updFrame i fun f => { f with answer := some 0#32 }
    | some off =>
      if assigned off then s.updLink i fun l => { l with reads := l.reads ++ [{ off := off, live := true }] }
      else s.updFrame i fun f => { f with answer := some 0#32 }

/-- One byte is clocked out of a FETCH or PEEK frame: a fill byte, a start byte, or a byte of the word (R26). -/
def sendByte (i : Slot) (s : State) : State :=
  match s.links[i].frame with
  | none => s
  | some f =>
    match f.unit, f.answer with
    | b :: rest, _ => (s.updFrame i fun f => { f with unit := rest }).updLink i fun l => { l with dataOut := b }
    | [], some w =>
      requestWord i ((s.updFrame i fun f => { f with unit := wordBytes w, answer := none }).updLink i fun l =>
        { l with dataOut := 0x00#8 })
    | [], none => s.updLink i fun l => { l with dataOut := 0xFF#8 }

/-! ## The write buffer (R29) -/

/-- An error is counted for a link, once the LEC's earlier changes have been published (R30, R31, R38). -/
def linkError (i : Slot) (s : State) : State := whenFree (.salError i) (countError i) s

/-- A frame error: it is counted for the link and marked on the frame (R30). -/
def frameError (i : Slot) (s : State) : State := linkError i (s.updFrame i fun f => { f with errored := true })

/-- A word is offered to the write buffer; at a full buffer the frame overruns (R29). -/
def offerWord (i : Slot) (e : BufferEntry) (s : State) : State :=
  if s.links[i].buffer.length < Config.bufferSize then s.updLink i fun l => { l with buffer := l.buffer ++ [e] }
  else frameError i (s.updFrame i fun f => { f with overrun := true })

/-- A STORE word at an S field or the commit word, as the Intake forms it (R4, R6, R8); `none` is a silent discard. -/
def formStore (off : Nat) (data : Word) : Option BufferEntry :=
  match kindAt off with
  | .blade _ fs => some { off := off, data := storeFields fs 0#32 data, mask := none }
  | .commit _ => some { off := off, data := data, mask := some commitMask }
  | _ => none

/-- A MERGE as the Intake forms it (R8): the mask is limited to the slot's S bits, an empty one is a silent discard, and a mask
of the whole word makes a plain write. -/
def formMerge (off : Nat) (mask data : Word) : Option BufferEntry :=
  match kindAt off with
  | .blade _ fs =>
    let m := mask &&& fieldsMask fs
    if m = 0#32 then none
    else if mask = BitVec.allOnes 32 then some { off := off, data := storeFields fs 0#32 data, mask := none }
    else some { off := off, data := data, mask := some m }
  | .commit _ =>
    let m := mask &&& commitMask
    if m = 0#32 then none else some { off := off, data := data, mask := some m }
  | _ => none

/-- A link write at a window offset: a violation, a silent discard or an entry (R4, R27, R28). -/
def linkWrite (i : Slot) (off : Nat) (form : Nat → Option BufferEntry) (s : State) : State :=
  match windowPlace off, windowOff i off with
  | .mirror _, _ | .unmapped, _ => frameError i s
  | _, some o =>
    match form o with
    | some e => offerWord i e s
    | none => s
  | _, none => s

/-- A complete STORE data word (R27, R29). -/
def storeWord (i : Slot) (data : Word) (s : State) : State :=
  match s.links[i].frame with
  | none => s
  | some f =>
    let s := if f.overrun then s else linkWrite i f.offset (fun o => formStore o data) s
    s.updFrame i fun f => { f with offset := nextOffset f.offset, part := [] }

/-- A complete MERGE frame (R28). -/
def mergeWord (i : Slot) (mask data : Word) (s : State) : State :=
  match s.links[i].frame with
  | none => s
  | some f =>
    (linkWrite i f.offset (fun o => formMerge o mask data) s).updFrame i fun f => { f with complete := true, part := [] }

/-! ## Bytes (R25–R28) -/

/-- The command byte of a frame (R25). -/
def commandByte (i : Slot) (b : Byte) (s : State) : State :=
  let start (f : Frame) (s : State) : State := s.updLink i fun l => { l with frame := some f, dataOut := 0xFF#8 }
  if !s.live || s.links[i].state == .isolated then start (Frame.start .fetch true) s
  else match frameCommandOf b with
    | none => linkError i (start (Frame.start .fetch true) s)
    | some c =>
      let writes := c == .store || c == .merge
      if s.links[i].state == .restricted && writes then start (Frame.start c true) s
      else
        let s := start (Frame.start c false) s
        if c = .peek then requestWord i s else s

/-- An offset byte; a FETCH whose offset is complete requests its first word (R26). -/
def offsetByte (i : Slot) (b : Byte) (f : Frame) (s : State) : State :=
  let o := f.offset * 256 + b.toNat
  let s := s.updFrame i fun f => { f with header := f.header + 1, offset := if f.header = 0 then o else o % 1024 }
  if f.header = 1 && f.command == .fetch then requestWord i s else s

/-- A byte of a STORE or MERGE after its header. -/
def dataByte (i : Slot) (b : Byte) (f : Frame) (s : State) : State :=
  let part := b :: f.part
  if f.command = .store then
    if part.length = 4 then storeWord i (bytesWord part) s else s.updFrame i fun f => { f with part := part }
  else if f.complete then s
  else if part.length = 8 then mergeWord i (bytesWord (part.drop 4)) (bytesWord (part.take 4)) s
  else s.updFrame i fun f => { f with part := part }

/-- One complete byte arrives on data-in, and one leaves on data-out. -/
def linkByte (i : Slot) (b : Byte) (s : State) : State :=
  match s.links[i].frame with
  | none => commandByte i b s
  | some f =>
    if f.disregarded then s
    else match f.command with
      | .peek => sendByte i s
      | .fetch => if f.header < 2 then offsetByte i b f s else sendByte i s
      | .store | .merge => if f.header < 2 then offsetByte i b f s else dataByte i b f s

/-- Bytes in order. -/
def linkBytes (i : Slot) (bytes : List Byte) (s : State) : State := forEach bytes (linkByte i) s

/-- Was a frame released short (R26–R28)? -/
def Frame.short (f : Frame) : Bool :=
  match f.command with
  | .peek => false
  | .fetch => f.header < 2
  | .store => f.header < 2 || !f.part.isEmpty
  | .merge => !f.complete

/-- Select is released (R26, R27, R30, R33): a taken frame may be short, lowers the LEC if it counted no error, and is
activity. -/
def releaseSelect (i : Slot) (s : State) : State :=
  match s.links[i].frame with
  | none => s
  | some f =>
    let s := s.updLink i fun l =>
      { l with frame := none, dataOut := 0xFF#8, reads := l.reads.map fun r => { r with live := false } }
    if f.disregarded then s
    else
      let s := if f.short then linkError i s
        else if f.errored then s
        else whenFree (.salGood i) (countGood i) s
      whenFree (.ssqActivity i) (takeActivity i) s

/-! ## The commands of a link -/

/-- Does the link carry no frame, or one whose bytes are disregarded or of this command? -/
def carries (s : State) (i : Slot) (c : FrameCommand) : Bool :=
  match s.links[i].frame with
  | none => true
  | some f => f.disregarded || f.command == c

/-- Bytes that open a frame, if none is open. -/
def openFrame (i : Slot) (bytes : List Byte) (s : State) : State :=
  if s.links[i].frame.isNone then linkBytes i bytes s else s

/-- A FETCH frame, or the going on of one (R26). -/
def fetchFrame (i : Slot) (off : BitVec 16) (clocks : Nat) (s : State) : State :=
  if carries s i .fetch then
    linkBytes i (List.replicate clocks 0xFF#8) (openFrame i (FrameCommand.fetch.byte :: offsetBytes off) s)
  else s

/-- A PEEK frame, or the going on of one (R26). -/
def peekFrame (i : Slot) (clocks : Nat) (s : State) : State :=
  if carries s i .peek then linkBytes i (List.replicate clocks 0xFF#8) (openFrame i [FrameCommand.peek.byte] s) else s

/-- A STORE data word, opening its frame if none is open (R27). -/
def storeFrame (i : Slot) (off : BitVec 16) (data : Word) (s : State) : State :=
  if carries s i .store then linkBytes i (wordBytes data) (openFrame i (FrameCommand.store.byte :: offsetBytes off) s) else s

/-- A whole MERGE frame up to byte 10 (R28). -/
def mergeFrame (i : Slot) (off : BitVec 16) (mask data : Word) (s : State) : State :=
  openFrame i (FrameCommand.merge.byte :: offsetBytes off ++ wordBytes mask ++ wordBytes data) s

/-- The command byte of an UNKNOWN_COMMAND frame (R25). -/
def unknownFrame (i : Slot) (command : Byte) (s : State) : State := openFrame i [command] s

/-- The last bytes of a frame, and its end. -/
def endFrame (i : Slot) (bytes : List Byte) (s : State) : State := releaseSelect i (linkBytes i bytes s)

end Sys2Proof.Machine
end

