-- ==== Sys2Proof/Machine/Agenda.lean ====
section
/-! DEFINITION. The hand-overs of one event, carried out in the order they were made (R43, R80, R84, R101, R121, R142, R152,
R165), and the pass of the PAL that follows them (R116; notes/assumptions/5.md). -/

namespace Sys2Proof.Machine

/-- A block acts on what has been handed to it. -/
def act : Msg → State → State
  | .ssqAdmit i => takeAdmission i
  | .ssqShed i => takeShed i
  | .ssqDetachDone i => takeDetachDone i
  | .ssqVerdict i valid => takeSlotVerdict i valid
  | .ssqMode old new => takeSlotMode old new
  | .ssqAbort => takeSlotAbort
  | .palState i st => takePalState i st
  | .palProfile i p => takePalProfile i p
  | .palSilent i silent => takePalSilent i silent
  | .palCooling z f => takeCooling z f
  | .palReservation w => takeReservation w
  | .palModule b st => takePalModule b st
  | .palAvailable w => takeAvailable w
  | .palMode m p => takePalMode m p
  | .palAbort => trigger
  | .ulcPlace i => takeRunEntry i
  | .ulcDetach i => takeDetach i
  | .ulcDrop i => takeDrop i
  | .ulcEmpty i => takeUplinkRemoval i
  | .ulcWeight i w => takeWeight i w
  | .ulcMode m => takeUplinkMode m
  | .ulcPowerOn b => takePowerOn b
  | .ulcPresence b present => takeUplinkPresence b present
  | .ulcVerdict b f => takeUplinkVerdict b f
  | .clcMember i m => takeMember i m
  | .clcSensors i n => takeSensors i n
  | .clcEmpty i => takeCoolingRemoval i
  | .clcModule b p => takeModulePowered b p
  | .meuReport => takeReport
  | .psmPresence b present => takePsuPresence b present
  | .psmVerdict b rated => takePsuVerdict b rated
  | .invState i st => takeInvState i st
  | .ssqAbortAt i => takeAbortAt i
  | .ssqModeAt i old new => takeModeAt i old new

/-- A block acts on what has been handed to it, or the operation waits (R38). -/
def handle (m : Msg) : State → State := whenFree (.handOver m) (act m)

/-- What an event of a line, a timer, the reader or the ring does to its block. -/
def eventOf : Instr → State → State
  | .slotRawReadingChange i pres latch => readPresence i pres latch
  | .presenceDebounceExpiry i => presenceExpiry i
  | .sbyPgGood i => readSbyPgGood i
  | .sbyPgLost i => readSbyPgBad i
  | .mainPgGood i => readMainPgGood i
  | .mainPgLost i => readMainPgBad i
  | .standbyTimeout i => standbyTimeout i
  | .standbyStepDelayExpiry i => standbyStep i
  | .identityTimeout i => identityTimeout i
  | .mainTimeout i => mainTimeout i
  | .mainStepDelayExpiry i => mainStep i
  | .mainDownDelayExpiry i => mainDownEnd i
  | .standbyDownDelayExpiry i => standbyDownEnd i
  | .activityTimerExpiry i => activityExpiry i
  | .modulePresenceChange b level => readModulePresence b level
  | .modulePresenceDebounceExpiry b => modulePresenceExpiry b
  | .retryTimerExpiry b => retryExpiry b
  | .readerAttemptStart => readerStart
  | .readerWord0Read w => readerWord0 w
  | .readerRecordRead words => readerRecord words
  | .readerNack => readerNack
  | .readerSclTimeout => readerSclTimeout
  | .pwrOkGood b => readPwrOkGood b
  | .pwrOkLost b => readPwrOkBad b
  | .startTimerExpiry b => startExpiry b
  | .restartTimerExpiry b => restartExpiry b
  | .alertRawChange b level => readAlert b level
  | .alertDebounceExpiry b => alertExpiry b
  | .faultDecayExpiry b => faultDecayExpiry b
  | .reduceDeadline i => reduceDeadline i
  | .eventRecordPerformed => takeRecordPerformed
  | _ => id

/-- What an operation does. -/
def actHeld : Held → State → State
  | .handOver m => act m
  | .update u => fun s => s.postUpdate u
  | .invCommit i n => takeCommit i n
  | .invFru i => takeFruWrite i
  | .invAnswer i serial w => takeVerifyAnswer i serial w
  | .ssqRequest i w => takeSlotRequest i w
  | .ssqEnable i on => takeEnable i on
  | .ssqActivityCount i n => takeActivityCount i n
  | .ssqFaultClear i => faultClear i
  | .ssqActivity i => takeActivity i
  | .ssqLocate i on => takeLocate i on
  | .salError i => countError i
  | .salGood i => countGood i
  | .salClear i => clearLink i
  | .psmClear b => psuClear b
  | .psmSetting off w => takePsmSetting off w
  | .palRequest i w => takePalRequest i w
  | .palDrawn i drawn echo => takeDrawn i drawn echo
  | .palClass i k => takeClass i k
  | .palAction i reclaim => takePalAction i reclaim
  | .palForced i on => takeForced i on
  | .palBaseLoad w => takeBaseLoad w
  | .palAllowance w => takeDefaultAllowance w
  | .palTurn => palMove
  | .meuMode m => takeModeRequest m
  | .meuSecond => advanceClock
  | .meuLoad c => loadClock c
  | .meuFlags w => takeFlags w
  | .meuEnables w => takeEnables w
  | .meuOverflow g => countOverflow g
  | .event c => eventOf c

/-- One hand-over, or one turn of the PAL once none is left. -/
def agendaTurn (s : State) : State :=
  match s.agenda with
  | m :: rest => handle m { s with agenda := rest }
  | [] => palTurn s

/-- Is there nothing left to hand over in the event? -/
def agendaDone (s : State) : Bool := s.agenda.isEmpty && !passDue s

/-- The hand-overs of an event, to their end. -/
def runAgenda : Nat → State → State
  | 0, s => s
  | n + 1, s => if agendaDone s then s else runAgenda n (agendaTurn s)

/-- An event's hand-overs. -/
def settle (s : State) : State := runAgenda Config.agendaFuel s

/-- The hand-overs of an event and the passes that follow them, to their end, where nothing is published yet: the first pass of
image preparation and of adoption (R174, R180). -/
def settleAll : Nat → State → State
  | 0, s => s
  | n + 1, s =>
    let s := settle s
    if s.pal.reduced then settleAll n (proceedPass s) else s

end Sys2Proof.Machine
end

