-- ==== Sys2Proof/Machine/Publish.lean ====
section
/-! DEFINITION. What the blocks publish into the image (section 1.13; R43, R68, R86, R98, R103, R109, R115, R124, R142, R143,
R163, R165–R172), how a change of it is posted (R9, R38), the lines the blocks drive, and the end of an event. -/

namespace Sys2Proof.Machine

/-! ## The published words -/

/-- A published word: its offset, its value, and the fields that make it up. -/
structure Pub where
  off : Nat
  value : Word
  fields : List Word
deriving DecidableEq, Repr

def ActivityState.code : ActivityState → Nat
  | .stopped => 0
  | .watching => 1
  | .silent => 2

def Attach.code : Attach → Nat
  | .detached => 0
  | .settling => 1
  | .attached => 2

def LinkState.code : LinkState → Nat
  | .normal => 0
  | .restricted => 1
  | .isolated => 2

def LedPattern.code : LedPattern → Nat
  | .off => 0
  | .on => 1
  | .slow => 2
  | .fast => 3

def EntryState.code : EntryState → Nat
  | .empty => 0
  | .pending => 1
  | .verifying => 2
  | .reading => 3
  | .valid => 4
  | .rejected => 5

def Verdict.code : Verdict → Nat
  | .none => 0
  | .valid => 1
  | .rejected => 2

/-- The throttle-cause bits of a summary word, bit 0 for DEFICIT (section 1.13). -/
def Causes.code (c : Causes) : Nat :=
  (if c.deficit then 1 else 0) + (if c.lateReduce then 2 else 0) + (if c.overdraw then 4 else 0) +
    (if c.coolingLost then 8 else 0) + (if c.forced then 16 else 0)

/-- The slot summary word (section 1.13). -/
def summaryWord (s : State) (i : Slot) : Word :=
  let a := s.pal.slots[i]
  let q := s.ssq.slots[i]
  putField 0 a.grant ||| putField 11 q.state.code ||| putField 15 a.epoch ||| putField 23 a.causes.code |||
    putField 28 s.links[i].state.code ||| putBit 30 (q.activity == .silent) ||| putBit 31 a.unsettled

/-- A word of one field. -/
def Pub.single (off : Nat) (value : Word) : Pub := { off := off, value := value, fields := [BitVec.allOnes 32] }

/-- A number as a word of one field. -/
def Pub.count (off n : Nat) : Pub := Pub.single off (putField 0 n)

/-- A flag as a word of one field. -/
def Pub.flag (off : Nat) (b : Bool) : Pub := Pub.single off (putBit 0 b)

/-- The device words of a slot record, words 16–25 (section 1.13). -/
def recordPubs (s : State) (i : Slot) : List Pub :=
  let q := s.ssq.slots[i]
  let p := s.ulc.slots[i]
  let e := s.bladeEntry i
  [ { off := recordOff i 16, value := summaryWord s i
      fields := [fieldMask 0 11, fieldMask 11 4, fieldMask 15 8, fieldMask 23 5, fieldMask 28 2, fieldMask 30 1, fieldMask 31 1] },
    Pub.count (recordOff i 17) q.reason.code,
    Pub.count (recordOff i 18) s.links[i].lec,
    Pub.count (recordOff i 19) q.activity.code,
    { off := recordOff i 20
      value := putField 0 (uplinkCode p.uplink) ||| putField 8 p.attach.code ||| putBit 16 (s.ulc.wait.contains i)
      fields := [fieldMask 0 3, fieldMask 8 2, fieldMask 16 1] },
    { off := recordOff i 21, value := putField 0 e.state.code ||| putField 8 e.verdict.code ||| putField 12 e.reason.code
      fields := [fieldMask 0 4, fieldMask 8 2, fieldMask 12 4] },
    { off := recordOff i 22, value := putField 0 q.attLed.code ||| putField 8 q.pwrLed.code
      fields := [fieldMask 0 2, fieldMask 8 2] },
    Pub.count (recordOff i 23) q.inserted.days,
    Pub.count (recordOff i 24) q.inserted.secs,
    { off := recordOff i 25
      value := putBit 0 q.abortHold ||| putBit 1 q.shedHold ||| putBit 2 s.pal.slots[i].adopted ||| putBit 3 e.pending.isSome
      fields := [fieldMask 0 1, fieldMask 1 1, fieldMask 2 1, fieldMask 3 1] } ]

/-- Words 12 and 13 of a record for a profile (section 1.13). -/
def profileWords : Option Profile → Word × Word
  | none => (0#32, 0#32)
  | some (.blade p) =>
    (putField 0 p.standbyFloor ||| putField 16 p.mainFloor, putField 0 p.cap ||| putField 16 p.sensors ||| putField 24 p.weight)
  | some (.psu r) => (putField 0 r, 0#32)
  | some (.module m) => (putField 0 m.capacity ||| putField 8 m.maxMembers ||| putField 16 m.power, 0#32)

/-- The 21 words of an inventory entry (section 1.13). -/
def entryWords (e : InvEntry) : List Word :=
  let active := profileWords e.active
  let pending := profileWords e.pending
  [putField 0 e.kind.code ||| putField 4 e.state.code ||| putField 8 e.verdict.code ||| putField 12 e.reason.code |||
      putField 16 (min 3 e.attempts) ||| putBit 18 e.pending.isSome,
    e.notes.setWidth 32] ++ e.identity.toList ++
    [active.1, active.2, pending.1, pending.2, putField 0 e.inserted.days, putField 0 e.inserted.secs,
      putField 0 e.validated.days, putField 0 e.validated.secs]

/-- The fields of word `k` of an inventory entry. -/
def entryFields (k : Nat) : List Word :=
  if k = 0 then [fieldMask 0 4, fieldMask 4 4, fieldMask 8 2, fieldMask 12 4, fieldMask 16 2, fieldMask 18 1]
  else [BitVec.allOnes 32]

/-- The words of inventory entry `e`. -/
def entryPubs (s : State) (e : EntryNo) : List Pub :=
  (entryWords s.inv.entries[e]).zipIdx.map fun (w, k) => { off := entryOff e k, value := w, fields := entryFields k }

/-- The chassis summary (section 1.13). -/
def chassisPubs (s : State) : List Pub :=
  [ Pub.count 0x100 s.meu.actual.code, Pub.flag 0x101 s.meu.changePending, Pub.flag 0x102 s.meu.quiescent,
    Pub.count 0x103 s.meu.clock.days,
    Pub.single 0x104 (putField 0 s.meu.clock.hours ||| putField 8 s.meu.clock.minutes ||| putField 16 s.meu.clock.seconds),
    Pub.count 0x105 s.psm.available, Pub.flag 0x106 s.psm.lost, Pub.count 0x107 s.pal.load,
    Pub.single budgetOff (bits32 s.pal.budget), Pub.single headroomOff (bits32 s.pal.headroom),
    Pub.count strandedOff s.pal.stranded, Pub.flag 0x10B s.pal.deficit, Pub.count 0x10C s.clc.reservation,
    Pub.single 0x10D s.inv.changeCount ] ++
    (allZones.map fun z => Pub.count (0x10E + z.val) s.clc.zones[z].applied) ++
    (allZones.map fun z => Pub.count (0x112 + z.val) s.clc.zones[z].factor) ++
    (allUplinks.map fun b => Pub.count (0x116 + b.val) s.ulc.bays[b].state.code)

/-- A PSU record (R98). -/
def psuPubs (s : State) (b : PsuBay) : List Pub :=
  let p := s.psm.bays[b]
  [p.state.code, p.reason.code, p.faults, p.band.code, p.rated, p.capacity, p.changed.days, p.changed.secs].zipIdx.map
    fun (n, k) => Pub.count (psuOff b k) n

/-- A fan record (R143). -/
def fanPubs (s : State) (p : FanPos) : List Pub :=
  let f := s.clc.fans[p]
  [f.state.code, f.drive, f.rpm, f.lowGates].zipIdx.map fun (n, k) => Pub.count (fanOff p k) n

/-- A zone record (R143). -/
def zonePubs (s : State) (z : Zone) : List Pub :=
  let x := s.clc.zones[z]
  [Pub.count (zoneRecordOff z 0) x.target, Pub.count (zoneRecordOff z 1) x.applied, Pub.count (zoneRecordOff z 2) x.factor,
    Pub.flag (zoneRecordOff z 3) x.critical]

/-- Up to eight members of a list, 4 bits each, the first in bits 0–3 (R163). -/
def memberNibbles : List Slot → Nat → Word
  | [], _ => 0#32
  | i :: rest, k => putField (4 * k) i.val ||| memberNibbles rest (k + 1)

/-- An uplink record (R163). -/
def uplinkPubs (s : State) (b : UplinkBay) : List Pub :=
  let u := s.ulc.bays[b]
  [Pub.count (uplinkOff b 0) u.state.code, Pub.count (uplinkOff b 1) u.reason.code, Pub.count (uplinkOff b 2) u.flap,
    Pub.flag (uplinkOff b 3) u.held, Pub.count (uplinkOff b 4) u.members.length, Pub.count (uplinkOff b 5) (s.ulc.units b),
    Pub.single (uplinkOff b 6) (memberNibbles (u.members.take 8) 0),
    Pub.single (uplinkOff b 7) (memberNibbles ((u.members.drop 8).take 8) 0)]

/-- The wait list, one slot number a word (R163). -/
def waitPubs (s : State) : List Pub :=
  (List.range 16).map fun k =>
    Pub.count (0x1C0 + k) (match s.ulc.wait[k]? with
      | some i => i.val + 1
      | none => 0)

/-- The summary code, ring tail and overflow count (R170, R172). -/
def meuPubs (s : State) : List Pub :=
  [Pub.count summaryCodeOff s.meu.summaryCode, Pub.count tailOff s.meu.tail, Pub.count overflowOff s.meu.overflow]

/-- Every published word, but for the inventory entries, in ascending offset order. -/
def statusPubs (s : State) : List Pub :=
  chassisPubs s ++ allPsuBays.flatMap (psuPubs s) ++ allFans.flatMap (fanPubs s) ++ allZones.flatMap (zonePubs s) ++
    allUplinks.flatMap (uplinkPubs s) ++ waitPubs s ++ meuPubs s ++ allSlots.flatMap (recordPubs s)

/-- Every published word, in ascending offset order. -/
def pubs (s : State) : List Pub := statusPubs s ++ allEntries.flatMap (entryPubs s)

/-! ## Posting changes (R9, R38) -/

/-- The update a word gives: of its fields, those that changed or lie under `forced`; all of them make a whole word (R9). -/
def Pub.update (forced : Word) (old new : Pub) : Option Update :=
  if old.value.toNat == new.value.toNat && forced.toNat == 0 then none
  else
  let posted := new.fields.filter fun m => old.value &&& m != new.value &&& m || m &&& forced != 0#32
  if posted.isEmpty then none
  else if posted.length = new.fields.length then some { off := new.off, kind := .whole new.value }
  else
    let mask := posted.foldl (· ||| ·) 0#32
    some { off := new.off, kind := .fields mask (new.value &&& mask) }

/-- The updates between two lists of the same words. -/
def pubUpdates (forced : Nat → Word) : List Pub → List Pub → List Update
  | o :: os, n :: ns => (match Pub.update (forced n.off) o n with
      | some u => [u]
      | none => []) ++ pubUpdates forced os ns
  | _, _ => []

/-- The fields of a word that the event publishes whether or not they changed (R31, R32, R101, R115, R169). -/
def Wra.forcedAt (w : Wra) (off : Nat) : Word :=
  w.forced.foldl (fun acc f => if f.1 = off then acc ||| f.2 else acc) 0#32

/-- The updates of one inventory entry: an entry that becomes EMPTY is published whole (R68). -/
def entryUpdates (s0 s : State) (e : EntryNo) : List Update :=
  if s0.inv.entries[e] = s.inv.entries[e] then []
  else
    let emptied := s.inv.entries[e].state == .empty && s0.inv.entries[e].state != .empty
    pubUpdates (fun _ => if emptied then BitVec.allOnes 32 else 0#32) (entryPubs s0 e) (entryPubs s e)

/-- Every update of an event that began in `s0`. -/
def changedUpdates (s0 s : State) : List Update :=
  pubUpdates s.wra.forcedAt (statusPubs s0) (statusPubs s) ++ allEntries.flatMap (entryUpdates s0 s)

/-- Every published word as a whole-word update: the first publications of each block (R174, R176). -/
def firstUpdates (s : State) : List Update := (pubs s).map fun p => { off := p.off, kind := .whole p.value }

/-- What an event publishes: changes while the ports are open and in the identity reads, everything as the ports open. -/
def published (s0 s : State) : List Update :=
  if s.phase = .operating then (if s0.phase = .operating then changedUpdates s0 s else firstUpdates s)
  else if s.phase = .identityReads && s0.phase = .identityReads then changedUpdates s0 s
  else []

/-- The publications of an event are posted, then the updates it offered, in order. -/
def postAll (updates : List Update) (s : State) : State :=
  (updates ++ s.wra.offered).foldl State.postUpdate { s with wra := { s.wra with offered := [], forced := [] } }

/-- The pass takes the words it posted in the event: those it has named for which one of the updates of the event carries a field of the
PAL (R123). -/
def takePosting (updates : List Update) (s : State) : State :=
  s.updPal fun p =>
    if p.posting.isEmpty then p
    else
      let given (o : Nat) : Bool := updates.any fun u => u.off == o && u.scopes.contains .pal
      { p with posted := p.posted ++ p.posting.filter (fun o => given o && !p.posted.contains o), posting := [] }

/-- Does an update of the PAL's fields of a slot's summary word wait for room? -/
def State.grantWaits (s : State) (i : Slot) : Bool := s.waitingUpdates.any fun u => u.off == summaryOff i && u.scopes.contains .pal

/-- The deadline of a reduction starts once its grant update has been taken into the queue (R117); over a pin reset none runs
(R128). -/
def armDeadlines (s : State) : State :=
  if s.phase ≠ .operating then s
  else forEach allSlots (fun i s =>
    let a := s.pal.slots[i]
    if a.unsettled && a.deadline.isNone && !s.grantWaits i then
      s.updAlloc i fun a => { a with deadline := some (s.pal.reduceTimeout * 10) }
    else s) s

/-! ## Lines -/

/-- The LED patterns as the slots now stand (R65, R66). -/
def formLeds (s : State) : State :=
  forEach allSlots (fun i s => s.updSlot i fun q => { q with attLed := attentionLed q, pwrLed := powerLed q.state }) s

/-- The summary code as flags and enables now stand (R172). -/
def formSummary (s : State) : State := s.updMeu fun m => { m with summaryCode := summaryCodeOf m.flags m.enables }

/-- The select lines of a slot's crossbar: the uplink of an ATTACHED slot (R154). -/
def Placement.select (p : Placement) : Option UplinkBay := if p.attach = .attached then p.uplink else none

/-- The chassis lines as the blocks drive them (R44, R65, R89, R127, R140, R148, R154, R172). -/
def outsOf (s : State) : Outs :=
  { sbyEn := s.ssq.slots.map fun q => standbyOn q.state
    mainEn := s.ssq.slots.map fun q => mainOn q.state
    throt := s.pal.slots.map fun a => a.causes.nonEmpty
    ledAtt := s.ssq.slots.map fun q => q.attLed.lit s.ssq.blink
    ledPwr := s.ssq.slots.map fun q => q.pwrLed.lit s.ssq.blink
    xsel := s.ulc.slots.map Placement.select
    psuOn := s.psm.bays.map fun p => psuIsOn p.state
    fanPwm := s.clc.fans.map fun f => f.drive
    modOn := s.ulc.bays.map fun u => isPowered u.state
    baySelect := s.inv.reading.map fun r => r.bay
    scl := s.outs.scl, sda := s.outs.sda
    attn := attention s.meu.flags s.meu.enables }

/-- The lines at the end of an event: driven while the ports are open; in the identity reads the bay selects alone (R175,
R177); else held. So after a FORMAT that follows a pin reset ATTN_N holds its level until adoption ends, as R175 has every output do, where
R173 has it deasserted after a FORMAT (DESIGN CHOICE, notes/assumptions/48.md). -/
def drive (s : State) : State :=
  if s.phase = .operating then { s with outs := outsOf s }
  else if s.phase = .identityReads then { s with outs := { s.outs with baySelect := s.inv.reading.map fun r => r.bay } }
  else s

/-! ## The end of an event -/

/-- What the blocks form at the end of an event that began in `s0`. -/
def formEnd (s0 s : State) : State :=
  let s := if s.phase = .operating || s.phase = .identityReads then countChanges s0.inv.entries s else s
  if s.phase = .operating then formSummary (formLeds s) else s

/-- What has changed since `base` is posted, and the pass takes its words. -/
def flush (base s : State) : State :=
  let updates := published base s
  takePosting updates (postAll updates s)

/-- The hand-overs of an event, and the pass of the PAL that follows them: what the pass has posted in REDUCE goes to the
write-back queue before the pass goes on (R117, R121). What is returned first is the state whose values have been posted. -/
def carry : Nat → State → State → State × State
  | 0, base, s => (base, s)
  | n + 1, base, s =>
    let s := settle s
    if passMoves s then
      let s := flush base s
      carry n s (proceedPass s)
    else (base, s)

/-- The end of an event that began in `s0`, `s` being its own effect: the hand-overs it made, what is formed, published and
driven. -/
def conclude (s0 s : State) : State :=
  let r := carry Config.passFuel s0 s
  drive (armDeadlines (flush r.1 (formEnd s0 r.2)))

/-! ## Operations for which the queue has no room (R38; notes/assumptions/13.md) -/

/-- Has the queue taken every update that binds its operation, of those posted between `u` and `t` (R38)? -/
def taken (u t : State) : Bool := t.waitingUpdates.countP Update.binds ≤ u.waitingUpdates.countP Update.binds

/-- One operation is offered, by itself: what it hands over is put off, and returned second. Where its block is held back, or the queue
has no room for an update that binds it, it waits, and nothing of it has happened. -/
def offerOne (m : Held) (s : State) : State × List Held :=
  if s.holdsBack m then (s.hold m, [])
  else
    let v := actHeld m { s with later := some [] }
    let t := conclude s v
    if taken v t then ({ t with later := none }, t.later.getD []) else (s.hold m, [])

/-- Operations are offered in order, each that is carried out followed in its turn by what it hands over; after the last of them the PAL
takes its turn, until it waits or has nothing left to do. -/
def offerAll : Nat → List Held → State → State
  | 0, l, s => { s with held := s.held ++ l }
  | n + 1, [], s => if passDue s || passMoves s then offerAll n [.palTurn] s else s
  | n + 1, m :: rest, s =>
    let r := offerOne m s
    offerAll n (rest ++ r.2) r.1

/-- An event for which the queue has no room is carried out part by part: what no wait holds back at once, and then each operation that
it leads to, in order, as far as there is room for it. -/
def partByPart (f : State → State) (s : State) : State :=
  let t := conclude s (f { s with later := some [] })
  offerAll Config.agendaFuel (t.later.getD []) { t with later := none }

/-- Has the queue room for an event that began in `s`, and of which `u` is the own effect? The first publications of the blocks wait by
themselves, and hold nothing of image preparation or adoption back (R174, R180). -/
def fits (s u : State) : Bool :=
  let t := conclude s u
  t.phase != s.phase || taken u t

/-- One event: what happens, the hand-overs it leads to, and its end; or, where the write-back queue has no room for all of it, the parts
of it for which there is (R38). -/
def react (f : State → State) (s : State) : State :=
  let u := f s
  if fits s u then conclude s u else partByPart f s

/-- What waits is offered again, in its order; what finds no room goes on waiting (R38). -/
def resumeHeld (s : State) : State := offerAll Config.agendaFuel s.held { s with held := [] }

end Sys2Proof.Machine
end

