-- ==== Sys2Proof/Machine/Notice.lean ====
section
/-! DEFINITION. Watch notices and command notices (R10, R14): what each block does when a write to a word it is named for has been
performed, and the settings copies the blocks keep (section 1.5). A block that is held up takes its notice later (R38). -/

namespace Sys2Proof.Machine

/-! ## Settings copies -/

def State.updSsq (s : State) (f : Ssq → Ssq) : State := { s with ssq := f s.ssq }

def State.updPsm (s : State) (f : Psm → Psm) : State := { s with psm := f s.psm }

def State.updUlc (s : State) (f : Ulc → Ulc) : State := { s with ulc := f s.ulc }

/-- The clock load copies with hours, minutes and seconds of image word 0x0011 (R169). -/
def Clock.loadTime (c : Clock) (w : Word) : Clock :=
  { c with hours := getField w 0 5, minutes := getField w 8 6, seconds := getField w 16 6 }

/-- A header or chassis setting is copied by its block (section 1.5). -/
def copyHeader (off : Nat) (w : Word) (s : State) : State :=
  let n := getField w 0 8
  match off with
  | 0x02 => s.updMeu fun m => { m with requested := modeOf n }
  | 0x04 => s.updPsm fun p => { p with policy := policyOf n }
  | 0x05 => s.updPsm fun p => { p with margin := getField w 0 16 }
  | 0x06 => s.updPal fun p => { p with baseLoad := getField w 0 16 }
  | 0x07 => s.updPal fun p => { p with defaultAllowance := n }
  | 0x09 => s.updSsq fun q => { q with presenceDebounce := n }
  | 0x0A => s.updSsq fun q => { q with standbyTimeout := n }
  | 0x0B => s.updSsq fun q => { q with mainTimeout := n }
  | 0x0C => s.updSsq fun q => { q with identityTimeout := n }
  | 0x0D => s.updSsq fun q => { q with tUp := getField w 0 4 }
  | 0x0E => s.updSsq fun q => { q with tDown := getField w 0 4 }
  | 0x0F => s.updPal fun p => { p with reduceTimeout := n }
  | 0x10 => s.updMeu fun m => { m with load := { m.load with days := getField w 0 16 } }
  | 0x11 => s.updMeu fun m => { m with load := m.load.loadTime w }
  | 0x13 => takeEnables w s
  | 0x14 => s.updMeu fun m => { m with head := getField w 0 16 % 64 }
  | _ => s

/-- Word `k` of a zone's settings is copied by the CLC (R144). -/
def copyZone (z : Zone) (k : Nat) (w : Word) (s : State) : State :=
  let n := getField w 0 8
  s.updZone z fun x =>
    match k with
    | 0 => { x with floorDuty := n }
    | 1 => { x with fanWatts := n }
    | 2 => { x with tLow := signed16 (getField w 0 16), tHigh := signed16 (getField w 16 16) }
    | 3 => { x with dMin := n }
    | 4 => { x with dMax := n }
    | 5 => { x with tCrit := signed16 (getField w 0 16) }
    | 6 => { x with slew := getField w 0 4 }
    | 7 => { x with minRpm := getField w 0 13 }
    | _ => x

/-- An uplink setting is copied by the ULC or the CLC (section 1.5). -/
def copyUplink (off : Nat) (w : Word) (s : State) : State :=
  let n := getField w 0 8
  match off with
  | 0xE0 => s.updUlc fun u => { u with failback := n == 1 }
  | 0xE1 => s.updUlc fun u => { u with settleTime := n }
  | 0xE2 => s.updUlc fun u => { u with upDebounce := n }
  | 0xE3 => s.updUlc fun u => { u with downDebounce := n }
  | 0xE4 => { s with clc := { s.clc with moduleFloor := n } }
  | _ => s

/-! ## Notices of settings (R14) -/

/-- The notice of a header or chassis setting (R99, R105, R109, R165, R169, R171, R172). -/
def headerNotice (off : Nat) (w : Word) (s : State) : State :=
  match off with
  | 0x02 => whenFree (.meuMode (modeOf (getField w 0 8))) (takeModeRequest (modeOf (getField w 0 8))) s
  | 0x04 | 0x05 => whenFree (.psmSetting off w) (takePsmSetting off w) s
  | 0x06 => whenFree (.palBaseLoad (getField w 0 16)) (takeBaseLoad (getField w 0 16)) s
  | 0x07 => whenFree (.palAllowance (getField w 0 8)) (takeDefaultAllowance (getField w 0 8)) s
  | 0x13 => whenFree (.meuEnables w) (takeEnables w) s
  | _ => copyHeader off w s

/-- The notice of word `k` of a slot's settings (R47, R64, R66, R106, R126, R155). -/
def slotNotice (i : Slot) (k : Nat) (w : Word) (s : State) : State :=
  match k with
  | 0 => whenFree (.ssqEnable i (getBit w 0)) (takeEnable i (getBit w 0)) s
  | 1 => whenFree (.palClass i (classOf (getField w 0 8))) (takeClass i (classOf (getField w 0 8))) s
  | 2 => takePrefs i (prefBays w) s
  | 3 => whenFree (.ssqActivityCount i (getField w 0 5)) (takeActivityCount i (getField w 0 5)) s
  | 4 => takeActivityAction i (getField w 0 8 == 1) s
  | 5 => whenFree (.palForced i (getBit w 8)) (takeForced i (getBit w 8))
      (whenFree (.ssqLocate i (getBit w 0)) (takeLocate i (getBit w 0)) s)
  | _ => s

/-- The notice of word `k` of a zone's settings: the CLC forms again what follows from it (R144). -/
def zoneNotice (z : Zone) (k : Nat) (w : Word) (s : State) : State := formCooling (copyZone z k w s)

/-- The notice of an uplink setting (R144). -/
def uplinkNotice (off : Nat) (w : Word) (s : State) : State :=
  if off = 0xE4 then formCooling (copyUplink off w s) else copyUplink off w s

/-- A processor write to a settings word has been performed, and `w` is stored (R14). -/
def settingNotice (off : Nat) (w : Word) (s : State) : State :=
  if off < 0x40 then headerNotice off w s
  else if off < 0xC0 then slotNotice (slotIx ((off - 0x40) / 8)) ((off - 0x40) % 8) w s
  else if off < 0xE0 then zoneNotice (zoneIx ((off - 0xC0) / 8)) ((off - 0xC0) % 8) w s
  else uplinkNotice off w s

/-! ## Notices of commands (R10) -/

/-- The abort command is handed to every slot and to the PAL (R168). -/
def takeAbort (s : State) : State := (s.push .ssqAbort).push .palAbort

/-- A command acts at its notice (R10). -/
def commandNotice : Command → State → State
  | .abort => takeAbort
  | .clockLoad => clockLoad
  | .faultClear i => whenFree (.ssqFaultClear i) (faultClear i)
  | .linkClear i => whenFree (.salClear i) (clearLink i)
  | .psuClear b => whenFree (.psmClear b) (psuClear b)
  | .uplinkClear b => uplinkClear b

/-- Does a performed write of `data` to a command word send its notice (R10)? -/
def notifies (c : Command) (data : Word) : Bool := c == .abort || getBit data 0

/-! ## Notices of link writes and of the group flags -/

/-- A link write of slot `i` to word `k` of its record has been performed, and `w` is stored (R14). -/
def recordNotice (i : Slot) (k : Nat) (w : Word) (s : State) : State :=
  match k with
  | 0 => whenFree (.ssqRequest i (getField w 0 16)) (takeSlotRequest i (getField w 0 16))
      (whenFree (.palRequest i (getField w 0 16)) (takePalRequest i (getField w 0 16)) s)
  | 1 => whenFree (.palDrawn i (getField w 0 16) (getField w 16 8)) (takeDrawn i (getField w 0 16) (getField w 16 8)) s
  | 2 => takeReadings i .first w s
  | 3 => takeReadings i .second w s
  | 15 => whenFree (.invCommit i (getField w 0 8)) (takeCommit i (getField w 0 8)) s
  | _ => s

/-- A link write of slot `i` has been performed (R14). -/
def bladeNotice (i : Slot) (off : Nat) (w : Word) (s : State) : State :=
  if off < 0x600 then recordNotice i ((off - 0x200) % 64) w s
  else whenFree (.invFru i) (takeFruWrite i) s

end Sys2Proof.Machine
end

