-- ==== Sys2Proof/Machine/Ports.lean ====
section
/-! DEFINITION. The Processor Memory Port (2.1): strobes, READY and the access in progress; and what the Intake answers at once (R1,
R7, R23, R24). -/

namespace Sys2Proof.Machine

def State.updPmp (s : State) (f : Pmp → Pmp) : State := { s with pmp := f s.pmp }

/-- The word address of an access. -/
def accessAddress : PortAccess → Nat
  | .read a => a.toNat
  | .write a _ => a.toNat

/-- The image offset of an address, if it lies in the image (section 1.1). -/
def imageOffset (a : Nat) : Option Nat := if Config.imageBase ≤ a then some (a - Config.imageBase) else none

/-- The word address of an image offset, on the processor's 19 address lines. -/
def imageAddress (off : Nat) : BitVec 19 := BitVec.ofNat 19 (Config.imageBase + off)

/-- A processor write to a word of this kind is discarded by the Intake (R1, R7). -/
def discardsWrite : WordKind → Bool
  | .unassigned | .device | .blade _ _ | .commit _ => true
  | _ => false

/-- Does the Intake end this access itself (R1, R7, R23)? -/
def answeredAtOnce (a : PortAccess) : Bool :=
  match imageOffset (accessAddress a), a with
  | none, _ => false
  | some off, .read _ => !assigned off
  | some off, .write _ _ => discardsWrite (kindAt off)

/-- The access in progress ends: READY and the data lines while its strobe still stands (R23, R24). -/
def endAccess (data : Option Word) (s : State) : State :=
  s.updPmp fun p =>
    if p.strobe.isSome && p.current then { p with holding := none, ready := true, dataOut := data }
    else { p with holding := none, ready := false, dataOut := none }

/-- What a read answered by the Intake carries: zero (R1). -/
def intakeData : PortAccess → Option Word
  | .read _ => some 0#32
  | .write _ _ => none

/-- The access in progress is passed to the Intake, which may end it at once (R23). -/
def passOn (s : State) : State :=
  match s.pmp.holding with
  | some a => if s.live && answeredAtOnce a then endAccess (intakeData a) s else s
  | none => s

/-- The port takes the asserted strobe's access if it holds none (R23, R24). -/
def takeStrobe (s : State) : State :=
  match s.pmp.strobe, s.pmp.holding with
  | some a, none =>
    if s.pmp.current then s
    else passOn (s.updPmp fun p => { p with holding := some a, current := true, ready := false, dataOut := none })
  | _, _ => s

/-- A strobe is asserted. A strobe already asserted stands until it is released (R23, R24). -/
def assertStrobe (a : PortAccess) (s : State) : State :=
  if s.pmp.strobe.isSome then s else takeStrobe (s.updPmp fun p => { p with strobe := some a, current := false })

/-- The strobe is released (R23, R24). -/
def releaseStrobe (s : State) : State :=
  s.updPmp fun p => { p with strobe := none, current := false, ready := false, dataOut := none }

/-- The ports open: a held access goes to the Intake, and a strobe that still stands is taken (R24, R180). -/
def openPorts (s : State) : State := takeStrobe (passOn s)

end Sys2Proof.Machine
end

