-- ==== Sys2Proof/Machine/Reset.lean ====
section
/-! DEFINITION. Power-on reset, FORMAT, the pin reset, RECOVER and adoption (sections 1.10, 1.11 and chapter 10). -/

namespace Sys2Proof.Machine

/-! ## Power-on reset and FORMAT (R19, R37, R174) -/

/-- A frame of a link whose select stays asserted over a reset is disregarded to its end (R25). -/
def Link.ignored (l : Link) : Link :=
  { Link.reset with frame := l.frame.map fun _ => Frame.start .fetch true }

/-- Power-on reset: every block takes its state after POR; the lines into the part, the strobe on the processor's bus and the
select of each link stand as the chassis holds them (R174; notes/assumptions/3.md). -/
def powerOn (s : State) : State :=
  takeStrobe
    { State.reset with
      pending := s.pending, pins := s.pins, links := s.links.map Link.ignored, freeDraws := s.freeDraws
      pmp := { Pmp.reset with strobe := s.pmp.strobe } }

/-- FORMAT's writes that find room in the write-back queue are queued (R19, R38). -/
def feedFormat (s : State) : State :=
  match s.phase with
  | .formatting pin cursor count =>
    let room := Config.queueSize - s.wra.queue.length
    let next := ((formatWrites count).drop cursor).take room
    { s with wra := next.foldl Wra.post s.wra, phase := .formatting pin (cursor + next.length) count }
  | _ => s

/-- Has FORMAT queued every write? -/
def formatQueued (cursor : Nat) (count : Word) : Bool := (formatWrites count).length ≤ cursor

/-- FORMAT begins (R19). -/
def startFormat (pin : Bool) (count : Word) (s : State) : State := feedFormat { s with phase := .formatting pin 0 count }

/-- The DRC's start-up ends: rows 0–7 have been refreshed; after power-on FORMAT begins (R37, R19). -/
def drcStartupDone (s : State) : State :=
  if s.drc.started then s
  else
    let s := { s with drc := { s.drc with started := true, debt := 0, row := 8 } }
    if s.phase = .startup then startFormat false 1#32 s else s

/-- The marker write has been performed, and the format latch is set (R17, R19). -/
def markFormatted (s : State) : State :=
  match s.phase with
  | .formatting pin cursor count =>
    if formatQueued cursor count && s.wra.queue.isEmpty then { s with phase := .formatted pin, formatLatch := true } else s
  | _ => s

/-! ## The end of image preparation after power-on (R145, R174) -/

/-- A fan position at the end of image preparation: a fan present enters SPINUP at once (R145). -/
def Fan.prepared (level : Bool) (f : Fan) : Fan :=
  let f := { f with raw := level, present := level, driven := true }
  if level then f.spinUp false else f

/-- The PAL has R and the cooling factors as the CLC has formed them, and nothing of their hand-over is left (R145, R174). -/
def takeCoolingFigures (s : State) : State :=
  { s.updPal fun p => { p with reservation := s.clc.reservation, factors := s.clc.zones.map fun z => z.factor } with agenda := [] }

/-- The end of image preparation after power-on (R174). -/
def endPreparation (s : State) : State :=
  let s := takeCoolingFigures (formCooling (forEach allFans (fun p s => s.updFan p (Fan.prepared s.pins.fanPres[p])) s))
  let s := raise .imageFormatted .chassis 0#32 (recount s)
  let s := settleAll Config.passFuel (startPass (evalDeficit (formLoad s)))
  openPorts { s with phase := .operating }

/-! ## After a FORMAT that follows a pin reset (R177) -/

/-- Every block but the links, the port and the DRC takes its state after POR; the blink counter keeps counting (R65). With the rest of
the CLC the factors are 100 and no zone is critical, which no rule gives: a zone without cooling at the adoption that follows raises
COOLING_LOST, whatever its factor was over the reset (DESIGN CHOICE, notes/assumptions/34.md). -/
def afterFormat (s : State) : State :=
  { s with
    ssq := { Ssq.reset with blink := s.ssq.blink }, inv := { Inv.reset with recoveryPulses := s.inv.recoveryPulses, sent := s.inv.sent }
    psm := Psm.reset, pal := Pal.reset, clc := Clc.reset, ulc := Ulc.reset, meu := Meu.reset, agenda := [], held := [], later := none }

/-- A bay whose presence line reads present is queued for its identity read (R177). -/
def queueIdentity (b : ModuleBay) (s : State) : State :=
  if s.pins.bayPres b then
    let s := s.updBay b fun x => { x with raw := true, present := true }
    let s := s.updEntry (bayEntry b) fun x => { x with state := .pending, attempts := 0, inserted := s.now }
    { s with inv := { s.inv with queue := s.inv.queue ++ [b] } }
  else s

/-- The blocks as the identity reads find them: what is published and counted in the event is counted from here (R86, R87). -/
def identityBase (s : State) : State := { afterFormat s with phase := .identityReads }

/-- The identity reads begin: every bay whose presence line reads present is queued (R177). -/
def startIdentityReads (s : State) : State := forEach allModuleBays queueIdentity s

/-- FORMAT has ended, and what follows it begins (R19, R174, R177). -/
def formatDone (s : State) : State :=
  match s.phase with
  | .formatted false => react endPreparation s
  | .formatted true => react startIdentityReads (identityBase s)
  | _ => s

/-! ## Pin reset (R175) -/

/-- A slot over a pin reset: its timers stop, its holds, SILENT and its down cause are cleared (R67). -/
def SlotSeq.halt (q : SlotSeq) : SlotSeq := { q.free.stopActivity with debounce := none, seq := none }

/-- The INV over a pin reset (R87). -/
def Inv.halt (v : Inv) : Inv :=
  { v with
    verifications := Vector.replicate 16 none, queue := [], reading := none
    bays := v.bays.map fun b => { b with debounce := none, retry := none } }

/-- A supply over a pin reset (R102). -/
def Psu.halt (p : Psu) : Psu := { p.quiet with alertTimer := none }

/-- The PAL over a pin reset (R128). -/
def Pal.halt (p : Pal) : Pal :=
  { p with
    slots := p.slots.map fun a => { a with deadline := none }
    pass := .idle, passPending := false, discarded := false, admits := [], moduleAdmits := [], posting := [], posted := [] }

/-- The CLC over a pin reset (R146). A zone's critical flag stays, which no rule gives: a zone that was critical and is so at adoption
raises no second THERMAL_CRITICAL (DESIGN CHOICE, notes/assumptions/34.md). -/
def Clc.halt (c : Clc) : Clc :=
  { c with
    fans := c.fans.map fun f => { f with presence := none, spin := none, probeTimer := none, tach := 0 }
    slots := c.slots.map fun t => { t with fresh := none }, gate := 0 }

/-- The ULC over a pin reset (R164). -/
def Ulc.halt (u : Ulc) : Ulc :=
  { u with
    bays := u.bays.map fun b => { b with power := none, link := none, decay := none }
    slots := u.slots.map fun p => { p with settle := none } }

/-- The MEU over a pin reset: records, tail updates and flag sets not yet performed are lost (R173). -/
def Meu.halt (m : Meu) : Meu := { m with records := [], tailPosted := [], tailDone := [] }

/-- RESET_N is asserted (R175): the links' round-robin begins again after link 16 (R34), the outputs hold, the queues and buffers are emptied, an access not taken is abandoned. -/
def resetAssert (s : State) : State :=
  { s with
    phase := .resetHeld, drc := { s.drc with lastLink := Drc.reset.lastLink }, wra := Wra.reset, links := s.links.map Link.ignored
    pmp := { s.pmp with holding := none, current := false, ready := false, dataOut := none }
    ssq := { s.ssq with slots := s.ssq.slots.map SlotSeq.halt }, inv := s.inv.halt
    psm := { s.psm with bays := s.psm.bays.map Psu.halt }, pal := s.pal.halt, clc := s.clc.halt, ulc := s.ulc.halt
    meu := s.meu.halt, agenda := [], held := [], later := none }

/-- The recovery of the Module Identity Line: clock pulses until SDA reads high, nine at most, and then a STOP (R87). -/
def lineRecovery (pulses : Nat) : List LineSymbol := List.replicate (min 9 pulses) .clock ++ [.stop]

/-- RESET_N is released: the header reads are requested, and the Module Identity Line is recovered (R175, R87). -/
def resetRelease (pulses : Nat) (s : State) : State :=
  if s.phase = .resetHeld then
    let s := { s with phase := .header none, inv := { s.inv with recoveryPulses := min 9 pulses, sent := lineRecovery pulses } }
    let s := { s with outs := { s.outs with baySelect := none, scl := true, sda := true } }
    (s.requestRead (.header 0)).requestRead (.header 1)
  else s

/-! ## RECOVER (R176) -/

/-- The words RECOVER reads, in order. -/
def recoverOffsets : List Nat := assignedOffsets

/-- The request for the word at a cursor, or the end of RECOVER. -/
def recoverNext (cursor : Nat) (s : State) : State :=
  match recoverOffsets[cursor]? with
  | some off => { s with phase := .recovering cursor }.requestRead (.recover off)
  | none => { s with phase := .recovered }

/-- The header words are answered, and the choice between RECOVER and FORMAT is made at the second (R17, R18, R175). -/
def takeHeader (w : Word) (s : State) : State :=
  match s.phase with
  | .header none => { s with phase := .header (some w) }
  | .header (some m) =>
    if s.formatLatch && m == Config.marker then recoverNext 0 s
    else startFormat true (if s.formatLatch then w + 1#32 else 1#32) s
  | _ => s

/-- A settings word brought into its storage ranges; an undefined code is the FORMAT default (R176). -/
def recoverFields (fs : List FieldSpec) (default w : Word) : Word :=
  fs.foldl (fun acc f =>
    acc ||| putField f.lo (f.rule.recover (getField default f.lo f.width) (getField w f.lo f.width))) 0#32

/-- Word `k` of a slot's settings is copied (section 1.5). -/
def copySlot (i : Slot) (k : Nat) (w : Word) (s : State) : State :=
  match k with
  | 0 => s.updSlot i fun q => { q with enabled := getBit w 0 }
  | 1 => s.updAlloc i fun a => { a with cls := classOf (getField w 0 8) }
  | 2 => s.updPlacement i fun p => { p with prefs := prefBays w }
  | 3 => s.updSlot i fun q => { q with activityCount := getField w 0 5 }
  | 4 => (s.updSlot i fun q => { q with reclaim := getField w 0 8 == 1 }).updAlloc i fun a =>
      { a with reclaim := getField w 0 8 == 1 }
  | 5 => (s.updSlot i fun q => { q with locate := getBit w 0 }).updAlloc i fun a => { a with forced := getBit w 8 }
  | _ => s

/-- A recovered settings word (R176). -/
def recoverSetting (off : Nat) (w : Word) (s : State) : State :=
  let w := match kindAt off with
    | .settings fs => recoverFields fs (formatValue off) w
    | _ => w
  if off < 0x40 then copyHeader off w s
  else if off < 0xC0 then copySlot (slotIx ((off - 0x40) / 8)) ((off - 0x40) % 8) w s
  else if off < 0xE0 then copyZone (zoneIx ((off - 0xC0) / 8)) ((off - 0xC0) % 8) w s
  else copyUplink off w s

/-- A recovered word of a slot record (R176). -/
def recoverRecord (i : Slot) (k : Nat) (w : Word) (s : State) : State :=
  match k with
  | 0 => (s.updSlot i fun q => { q with request := getField w 0 16 }).updAlloc i fun a => { a with request := getField w 0 16 }
  | 2 => s.updThermal i fun t =>
      { t with readings := (t.readings.set 0 (readingOf (getField w 0 16))).set 1 (readingOf (getField w 16 16)) }
  | 3 => s.updThermal i fun t =>
      { t with readings := (t.readings.set 2 (readingOf (getField w 0 16))).set 3 (readingOf (getField w 16 16)) }
  | 16 => s.updAlloc i fun a => { a with grant := min 2000 (getField w 0 11), epoch := getField w 15 8 }
  | 23 => s.updSlot i fun q => { q with inserted := { q.inserted with days := getField w 0 16 } }
  | 24 => s.updSlot i fun q => { q with inserted := { q.inserted with secs := getField w 0 17 } }
  | _ => s

/-- The supply state of a code; an undefined one is EMPTY (R176). -/
def psuStateOf : Nat → PsuState
  | 1 => .identifying
  | 2 => .rejected
  | 3 => .starting
  | 4 => .online
  | 5 => .faulted
  | 6 => .retired
  | _ => .empty

/-- A recovered word of a PSU record: state and fault count (R176, R102). -/
def recoverPsu (b : PsuBay) (k : Nat) (w : Word) (s : State) : State :=
  match k with
  | 0 => s.updPsu b fun p => { p with state := psuStateOf w.toNat }
  | 2 => s.updPsu b fun p => { p with faults := min 255 w.toNat, band := bandOf (min 255 w.toNat) }
  | _ => s

/-- The entry state, verdict and reason of a code; an undefined one is FORMAT's (R176). -/
def entryStateOf : Nat → EntryState
  | 1 => .pending
  | 2 => .verifying
  | 3 => .reading
  | 4 => .valid
  | 5 => .rejected
  | _ => .empty

def verdictOf : Nat → Verdict
  | 1 => .valid
  | 2 => .rejected
  | _ => .none

def reasonOf : Nat → Reason
  | 1 => .version
  | 2 => .kind
  | 3 => .length
  | 4 => .checksum
  | 5 => .torn
  | 6 => .noResponse
  | _ => .none

/-- A profile of two words; all zero is no profile (section 1.13). Its fields are brought into the ranges of R70 again: R176 gives
each its last performed value and says nothing of a pair of words of which the reset let only one be performed (DESIGN CHOICE,
notes/assumptions/28.md). -/
def profileFrom (k : Kind) (w12 w13 : Word) : Option Profile :=
  if w12 = 0#32 && w13 = 0#32 then none
  else match k with
    | .blade => some (.blade (bladeProfile w12 w13).1)
    | .psu => some (.psu (psuProfile w12).1)
    | .module => some (.module (moduleProfile w12).1)

/-- An inventory entry of its 21 words (section 1.13, R87, R176). -/
def entryFrom (k : Kind) (w : Nat → Word) : InvEntry :=
  { kind := k, state := entryStateOf (getField (w 0) 4 4), verdict := verdictOf (getField (w 0) 8 2)
    reason := reasonOf (getField (w 0) 12 4), notes := (w 1).setWidth 5
    identity := Vector.ofFn fun j => w (2 + j.val)
    active := profileFrom k (w 13) (w 14), pending := if getBit (w 0) 18 then profileFrom k (w 15) (w 16) else none
    inserted := ⟨getField (w 17) 0 16, getField (w 18) 0 17⟩, validated := ⟨getField (w 19) 0 16, getField (w 20) 0 17⟩
    attempts := getField (w 0) 16 2 }

/-- The last word of an inventory entry is answered, and the INV takes the entry: its earlier words stand in the DRAM as they
were answered, since RECOVER writes nothing (R176, R87). -/
def recoverEntry (e : EntryNo) (k : Nat) (s : State) : State :=
  if k = 20 then s.updEntry e fun x => entryFrom x.kind fun j => s.image (entryOff e j) else s

/-- A recovered word of the chassis summary or of the words after the wait list (R173, R176, R87, R102). -/
def recoverStatus (off : Nat) (w : Word) (s : State) : State :=
  match off with
  | 0x103 => s.updMeu fun m => { m with clock := { m.clock with days := getField w 0 16 } }
  | 0x104 => s.updMeu fun m =>
      { m with
        sub := 0
        clock := { m.clock with
          hours := min 23 (getField w 0 5), minutes := min 59 (getField w 8 6), seconds := min 59 (getField w 16 6) } }
  | 0x106 => s.updPsm fun p => { p with lost := getBit w 0 }
  | 0x10D => { s with inv := { s.inv with changeCount := w } }
  | 0x1D0 => s.updMeu fun m => { m with flags := flagsOf w }
  | 0x1D2 => s.updMeu fun m => { m with tail := w.toNat % 64, writePos := w.toNat % 64 }
  | 0x1D3 => s.updMeu fun m => { m with overflow := getField w 0 16 }
  | _ => s

/-- A recovered word is handed to the blocks that take it (R176). -/
def takeRecovered (off : Nat) (w : Word) (s : State) : State :=
  if off < 0x100 then recoverSetting off w s
  else if 0x140 ≤ off && off < 0x170 then recoverPsu (psuIx ((off - 0x140) / 8)) ((off - 0x140) % 8) w s
  else if off < 0x200 then recoverStatus off w s
  else if off < 0x600 then recoverRecord (slotIx ((off - 0x200) / 64)) ((off - 0x200) % 64) w s
  else if 0xA00 ≤ off && off < 0xD40 then recoverEntry (entryIx ((off - 0xA00) / 32)) ((off - 0xA00) % 32) s
  else s

/-- A read-back of RECOVER is answered (R176). -/
def takeRecoverAnswer (off : Nat) (w : Word) (s : State) : State :=
  match s.phase with
  | .recovering cursor => recoverNext (cursor + 1) (takeRecovered off w s)
  | _ => s

/-! ## Adoption: inventory, supplies and fans (R87, R102, R146, R177) -/

/-- A blade entry over RECOVER (R87). -/
def adoptBladeEntry (e : InvEntry) : InvEntry := if e.state = .verifying then { e with state := .pending } else e

/-- A module bay over RECOVER: its presence follows its entry, and an unfinished read is queued again (R87). -/
def adoptModuleBay (b : ModuleBay) (s : State) : State :=
  let e := s.inv.entries[bayEntry b]
  let there := e.state != .empty
  let s := s.updBay b fun x => { x with raw := there, present := there }
  if e.state == .pending || e.state == .reading then
    let s := s.updEntry (bayEntry b) fun x => { x with state := .pending, attempts := 0 }
    { s with inv := { s.inv with queue := s.inv.queue ++ [b] } }
  else s

/-- The inventory is adopted; after a FORMAT it stands as the identity reads left it (R177). -/
def adoptInventory (recovered : Bool) (s : State) : State :=
  if recovered then
    forEach allModuleBays adoptModuleBay (forEach allSlots (fun i s => s.updEntry (slotEntry i) adoptBladeEntry) s)
  else s

/-- A supply's adopted state by its entry alone (R177). -/
def psuByEntry : EntryState → PsuState
  | .valid => .starting
  | .rejected => .rejected
  | .pending | .reading | .verifying => .identifying
  | .empty => .empty

/-- A supply's adopted state (R177). -/
def psuAdopted (recovered on : Bool) (old : PsuState) (e : EntryState) (pwrOk : Bool) : PsuState :=
  if on then (if e = .valid then (if pwrOk then .online else .starting) else psuByEntry e)
  else if recovered && old == .retired then .retired
  else if recovered && old == .faulted then .faulted
  else psuByEntry e

/-- The timers of an adopted supply (R102, R177). -/
def Psu.adoptTimers (p : Psu) : Psu :=
  { p.quiet with
    alertTimer := none
    start := if p.state = .starting then some Config.psuStart else none
    restart := if p.state = .faulted then some Config.psuRestart else none
    decay := if p.state = .online && !p.alert then some Config.psuDecay else none }

/-- One supply is adopted (R177, R102). Its fault reason stays as held over the reset, whatever the adopted state, and is NONE after a
FORMAT: neither rule gives it (DESIGN CHOICE, notes/assumptions/19.md). A bay adopted ONLINE with a recovered count of 255, a clear whose update was
lost at the reset, stays ONLINE, counts 0 W and decays (DESIGN CHOICE, notes/assumptions/36.md). -/
def adoptPsu (recovered : Bool) (b : PsuBay) (s : State) : State :=
  let e := s.inv.entries[bayEntry (psuModule b)]
  let new := psuAdopted recovered s.outs.psuOn[b] s.psm.bays[b].state e.state s.pins.pwrOk[b]
  s.updPsu b fun p =>
    let p := { p with
      state := new, rated := e.rated, pwrOk := s.pins.pwrOk[b], alertRaw := s.pins.alert[b], alert := s.pins.alert[b]
      changed := if p.state = new then p.changed else s.now }
    let p := { p with band := bandOf p.faults, capacity := p.counted }
    p.adoptTimers

/-- The supplies and available power are adopted (R177, R102). -/
def adoptSupplies (recovered : Bool) (s : State) : State :=
  recomputeAvailable true (forEach allPsuBays (adoptPsu recovered) s)

/-- One fan position is adopted: a fan present is OK and keeps its held drive (R146). R146 does not give the rpm of its last gate: it
stays as it was held over the reset, 0 after a FORMAT (DESIGN CHOICE, notes/assumptions/29.md). -/
def adoptFan (p : FanPos) (s : State) : State :=
  let level := s.pins.fanPres[p]
  let held := s.outs.fanPwm[p]
  s.updFan p fun f =>
    let f := { f with
      raw := level, present := level, presence := none, spin := none, probeTimer := none, probe := false, tach := 0
      lowGates := 0, driven := true }
    if level then { f with state := .ok, drive := held } else { f with state := .absent, rpm := 0, drive := 0 }

/-- The duty a zone starts with: the largest held drive of its present fans, or 100 % (R146). -/
def heldDuty (s : State) (z : Zone) : Nat :=
  match (zoneFans z).filter fun p => s.clc.fans[p].state != .absent with
  | [] => 100
  | present => (present.map fun p => s.clc.fans[p].drive).foldl max 0

/-- The fans are adopted, then φ and R (R146, R177). -/
def adoptFans (s : State) : State :=
  let s := forEach allFans adoptFan s
  let s := forEach allZones (fun z s => s.updZone z fun x => { x with applied := heldDuty s z }) s
  let s := { s with clc := { s.clc with gate := 0 } }
  formReservation (forEach allZones formFactor s)

/-! ## Adoption: slots (R178) -/

/-- A slot's adopted state, and its fault reason (R178). -/
def slotAdopted (r : Reading) (mainEn sbyEn mainPg sbyPg valid enabled : Bool) : SlotState × FaultReason :=
  match r with
  | .absent | .invalid => (.empty, .none)
  | .unlatched => (.detecting, .none)
  | .seated =>
    if mainEn then
      if !mainPg then (.fault, .mainPg) else if !sbyPg then (.fault, .standbyPg) else (.run, .none)
    else if sbyEn then
      if !sbyPg then (.fault, .standbyPg) else if valid then (.ready, .none) else (.identifying, .none)
    else if enabled then (.detecting, .none)
    else (.held, .none)

/-- What the SSQ holds for a slot before its adopted state is entered. -/
def SlotSeq.adoptBase (q : SlotSeq) (r : Reading) (sbyPg mainPg : Bool) (verdict : Verdict) : SlotSeq :=
  { q.halt with
    state := .empty, raw := r, debounced := if r = .invalid then .absent else r, sbyPg := sbyPg, mainPg := mainPg
    reason := .none, linkState := .normal, verdict := verdict, arrived := false }

/-- A slot adopted IDENTIFYING or RUN whose blade entry is EMPTY has it made PENDING (R178). -/
def pendEmptyEntry (i : Slot) (s : State) : State :=
  let st := s.ssq.slots[i].state
  if (st == .identifying || st == .run) && (s.bladeEntry i).state == .empty then
    s.updEntry (slotEntry i) fun e => { e with state := .pending, inserted := s.ssq.slots[i].inserted }
  else s

/-- One slot is adopted (R178). A slot adopted READY promotes a pending profile, as at any entry to READY: R87 keeps the profile
over RECOVER, R79 promotes at the entry, and R178 is silent (DESIGN CHOICE, notes/assumptions/30.md). -/
def adoptSlot (recovered : Bool) (i : Slot) (s : State) : State :=
  let r := readingOfLines s.pins.pres[i] s.pins.latch[i]
  let e := s.bladeEntry i
  let q := s.ssq.slots[i]
  let (new, reason) := slotAdopted r s.outs.mainEn[i] s.outs.sbyEn[i] s.pins.mainPg[i] s.pins.sbyPg[i] (e.state == .valid) q.enabled
  let s := s.updSlot i fun q => q.adoptBase r s.pins.sbyPg[i] s.pins.mainPg[i] e.verdict
  if new = .empty then clearSlotWords i (becomeEmpty i s)
  else
    let s := s.updSlot i fun q => { q with arrived := true, inserted := if recovered then q.inserted else s.now }
    let s := setSlot i new (fun q => { q with reason := reason }) s
    let s := if new = .ready then examine i s else s
    pendEmptyEntry i s

/-! ## Adoption: uplinks and membership (R177, R179) -/

/-- An uplink's adopted state by its entry alone (R177). -/
def uplinkByEntry : EntryState → UplinkState
  | .valid => .off
  | .rejected => .rejected
  | .pending | .reading | .verifying => .identifying
  | .empty => .empty

/-- An uplink's adopted state (R177). -/
def uplinkAdopted (on faulted : Bool) (e : EntryState) (modPg linkUp : Bool) : UplinkState :=
  if on then
    if e = .valid then (if !modPg then .powering else if linkUp then .up else .linkDown) else uplinkByEntry e
  else if faulted then .fault
  else uplinkByEntry e

/-- One uplink bay is adopted (R177). -/
def adoptUplink (recovered : Bool) (b : UplinkBay) (s : State) : State :=
  let e := s.inv.entries[bayEntry (uplinkModule b)]
  let faulted := recovered && (s.image (uplinkOff b 0)).toNat == UplinkState.fault.code
  let new := uplinkAdopted s.outs.modOn[b] faulted e.state s.pins.modPg[b] s.pins.linkUp[b]
  s.updUplink b fun u =>
    { (u.timed .empty new) with
      state := new, reason := if new = .fault then u.reason else .none, figures := e.figures, flap := 0, held := false
      members := [], linkUp := s.pins.linkUp[b], modPg := s.pins.modPg[b] }

/-- The slots of a recovered member list, oldest first (R163, R179). -/
def recoveredMembers (s : State) (b : UplinkBay) : List Slot :=
  let n := min 16 (s.image (uplinkOff b 4)).toNat
  (List.range n).map fun k =>
    slotIx (if k < 8 then getField (s.image (uplinkOff b 6)) (4 * k) 4 else getField (s.image (uplinkOff b 7)) (4 * (k - 8)) 4)

/-- A list with each slot at its first appearance. -/
def firstOnly : List Slot → List (Slot × UplinkBay) → List (Slot × UplinkBay)
  | _, [] => []
  | seen, (i, b) :: rest => if seen.contains i then firstOnly seen rest else (i, b) :: firstOnly (i :: seen) rest

/-- A slot joins a list at adoption: ATTACHED where its held XSEL names the uplink, SETTLING otherwise (R179). A slot whose preference
list is empty stands on no uplink (R13, R155): it stays DETACHED (R179). -/
def adoptMember (i : Slot) (b : UplinkBay) (s : State) : State :=
  if s.ssq.slots[i].state == .run && !s.ulc.slots[i].prefs.isEmpty && s.ulc.takes b i then
    let s := joinList b i s
    if s.outs.xsel[i] = some b then s.updPlacement i fun p => { p with attach := .attached, settle := none } else s
  else s

/-- A slot adopted RUN that no list has taken waits, unless its preference list is empty (R179). -/
def adoptWait (i : Slot) (s : State) : State :=
  let p := s.ulc.slots[i]
  if s.ssq.slots[i].state == .run && p.uplink.isNone && !p.prefs.isEmpty then joinWait i s else s

/-- What the ULC holds for a slot before membership is rebuilt. -/
def adoptPlacement (i : Slot) (s : State) : State :=
  s.updPlacement i fun p =>
    { p.detached with weight := (s.bladeEntry i).blade.map (·.weight), inRun := s.ssq.slots[i].state == .run }

/-- A slot joins after a FORMAT only the uplink its held XSEL names (R179). -/
def adoptHeld (i : Slot) (s : State) : State :=
  match s.outs.xsel[i] with
  | some b => adoptMember i b s
  | none => s

/-- Membership is rebuilt (R179). The recovered wait list places no slot: a slot of it that is adopted RUN joins the wait list in slot
order, as every other that no member list has placed. -/
def adoptMembership (recovered : Bool) (s : State) : State :=
  let s := { s with ulc := { s.ulc with wait := [], mode := .configure } }
  let s := forEach allSlots adoptPlacement s
  if recovered then
    let listed := firstOnly [] (allUplinks.flatMap fun b => (recoveredMembers s b).map fun i => (i, b))
    forEach allSlots adoptWait (forEach listed (fun m s => adoptMember m.1 m.2 s) s)
  else forEach allSlots adoptWait (forEach allSlots adoptHeld s)

/-! ## Adoption: zones, allocation and the MEU (R146, R178, R180) -/

/-- The CLC's members, sensor counts and module states, and the zones (R146, R179). A fan adopted with a held drive other than its zone's
applied duty is driven at the applied duty here, in the event of the adoption: R146 keeps its held drive, and R140 drives an OK fan at the
applied duty (DESIGN CHOICE, notes/assumptions/42.md). -/
def adoptZones (s : State) : State :=
  let s := forEach allSlots (fun i s => s.updThermal i fun t =>
    { (if s.ssq.slots[i].state = .empty then Thermal.reset else t) with
      member := isMember s.ssq.slots[i].state, fresh := none, sensors := (s.bladeEntry i).blade.map (·.sensors) }) s
  let s := forEach allUplinks (fun b s => s.updZone (uplinkZone b) fun x => { x with modulePowered := isPowered s.ulc.bays[b].state }) s
  formCooling s

/-- The adopt allowance as stored (section 1.5: read at adoption). -/
def adoptAllowance (s : State) : Nat := clampNat 0 2000 (getField (s.image 0x08) 0 16)

/-- The grant of a slot adopted RUN whose entry is VALID (R178). -/
def adoptedGrant (p : Plan) (grant : Nat) : Nat :=
  let g := clampNat p.floor (max p.floor p.effCap) grant
  p.floor + 5 * ((g - p.floor) / 5)

/-- The allocation entry of an adopted slot (R178, R180). A slot adopted RUN with a VALID entry that holds no profile has the adopt
allowance without the adopted marker, which no rule gives (DESIGN CHOICE, notes/assumptions/28.md). The entry of a slot adopted EMPTY
is cleared as at a removal, its epoch 0 (R59, R103). `base` is the entry as recovered, `blade` its active profile. -/
def adoptedAlloc (state : SlotState) (base : Alloc) (blade : Option BladeProfile) (valid : Bool) (factor default adopt : Nat) :
    Alloc :=
  let clean : Alloc :=
    { base.emptied default with
      state := state, standing := standingOf state, request := if state = .empty then 0 else base.request }
  let a : Alloc := { clean with
    plan := blade.map (planOf factor), allowance := (blade.map fun b : BladeProfile => b.standbyFloor).getD default }
  let a := if a.standing = .none then a else a.takeStanding factor
  let grant := match a.standing, valid, a.plan with
    | .admitted, true, some p => adoptedGrant p base.grant
    | .admitted, _, _ => adopt
    | _, _, _ => 0
  let inForce := match a.standing with
    | .admitted => grant
    | .standby => a.allowance
    | .none => 0
  { a with
    grant := grant, inForce := inForce, target := inForce
    epoch := if state = .empty then 0 else if grant = base.grant then base.epoch else nextEpoch base.epoch
    adopted := a.standing == .admitted && !valid }

/-- One slot's allocation is adopted (R178, R180). -/
def adoptAlloc (i : Slot) (s : State) : State :=
  let e := s.bladeEntry i
  let adopt := adoptAllowance s
  s.updAlloc i fun a =>
    adoptedAlloc s.ssq.slots[i].state a e.blade (e.state == .valid) s.pal.factors[zoneOf i] s.pal.defaultAllowance adopt

/-- A slot adopted RUN takes the next admission sequence number; one adopted into ADMIT_WAIT joins the queue (R178). -/
def adoptOrder (i : Slot) (s : State) : State :=
  match s.ssq.slots[i].state with
  | .run =>
    let n := s.pal.counter + 1
    (s.updPal fun p => { p with counter := n }).updAlloc i fun a => { a with sequence := some n }
  | .admitWait => joinQueueAt i s
  | _ => s

/-- The allocation is adopted: the PAL's copies, each slot, L, B and DEFICIT (R128, R180). -/
def adoptAllocation (s : State) : State :=
  let s := s.updPal fun p =>
    { p with
      queue := [], joins := 0, counter := 0, deficit := false, blockedHead := none, mode := .configure, changePending := false
      available := s.psm.available, reservation := s.clc.reservation, factors := s.clc.zones.map fun z => z.factor
      modules := s.ulc.bays.map fun u => u.state, handedOver := Vector.replicate 4 false }
  let s := forEach allSlots adoptOrder (forEach allSlots adoptAlloc s)
  evalDeficit (formLoad s)

/-- A slot powered at adoption whose enable copy is DISABLED acts as at a DISABLED write (R178). -/
def adoptDisabled (i : Slot) (s : State) : State := if s.ssq.slots[i].enabled then s else takeOut i .disable s

/-- The number of slots adopted RUN (R180). -/
def runCount (s : State) : Nat := countSlots s (· == .run)

/-- Adoption's steps up to the allocation, in the order of 10.4. What they hand over is taken by those that follow them, so
nothing of it is left for later. -/
def adoptBlocks (recovered : Bool) (s : State) : State :=
  let s := s.updMeu fun m => { m with actual := .configure, changePending := false }
  let s := adoptFans (adoptSupplies recovered (adoptInventory recovered s))
  let s := forEach allSlots (adoptSlot recovered) s
  let s := adoptMembership recovered (forEach allUplinks (adoptUplink recovered) s)
  { adoptAllocation (adoptZones s) with agenda := [] }

/-- Completion (R180): the counts, the event, the first pass, the mode, the disabled slots and the ports. R178 has the disabled
slots act at the end of adoption and R180 does not list them among its steps: here they act after the first pass and the mode, and
before the ports open (DESIGN CHOICE, notes/assumptions/31.md). -/
def completeAdoption (recovered : Bool) (s : State) : State :=
  let s := formQuiescent (recount s)
  let s := raise (if recovered then .imageRecovered else .imageFormatted) .chassis (putField 0 (runCount s)) s
  let s := settleAll Config.passFuel (startPass s)
  let s := takeModeRequest s.meu.requested s
  let s := forEach allSlots adoptDisabled s
  openPorts { s with phase := .operating }

/-- Have the identity reads ended (R177)? -/
def identityReadsDone (s : State) : Bool :=
  s.phase == .identityReads && s.inv.queue.isEmpty && s.inv.reading.isNone && allModuleBays.all fun b => s.inv.bays[b].retry.isNone

/-- Adoption, once RECOVER or the identity reads have ended (R178, R180). -/
def adoption (s : State) : State :=
  if s.phase = .recovered then completeAdoption true (adoptBlocks true s)
  else if identityReadsDone s then completeAdoption false (adoptBlocks false s)
  else s

end Sys2Proof.Machine
end

