-- ==== Sys2Proof/Machine/Access.lean ====
section
/-! DEFINITION. The arbiter (2.6): which access is taken next, and what performing it does (R6, R8, R10–R17, R23, R26, R29, R34–R36,
R39). -/

namespace Sys2Proof.Machine

/-- An access the arbiter can take. -/
inductive Access where
  | refresh
  | writeBack (u : Update)
  | readBack (r : ReadRequest)
  | port (a : PortAccess)
  | link (i : Slot)
deriving DecidableEq, Repr

/-- Has a link an access waiting (R29, R34)? -/
def Link.waiting (l : Link) : Bool := !l.buffer.isEmpty || !l.reads.isEmpty

/-- The links in the order of the search that begins after the one last served (R34). -/
def linkOrder (last : Slot) : List Slot := (List.range 16).map fun k => slotIx (last.val + 1 + k)

/-- The first access waiting behind refresh at debt 8 and the WRA: the port's, then the links' (R34). -/
def portOrLink (s : State) : Option Access :=
  match s.pmp.holding with
  | some a => some (.port a)
  | none => ((linkOrder s.drc.lastLink).find? fun i => s.links[i].waiting).map .link

/-- The access the arbiter takes next (R34): the WRA and refresh alone until the ports open, refresh alone while RESET_N is
asserted, nothing before the DRC's start-up has ended (R37). -/
def nextAccess (s : State) : Option Access :=
  let lazy : Option Access := if 0 < s.drc.debt then some .refresh else none
  if !s.drc.started then none
  else if s.phase = .resetHeld then lazy
  else if s.drc.debt = Config.maxDebt then some .refresh
  else match s.wra.queue, s.wra.reads with
    | u :: _, _ => some (.writeBack u)
    | [], r :: _ => some (.readBack r)
    | [], [] => if s.live then (portOrLink s).or lazy else lazy

/-! ## Refresh and the WRA -/

/-- One row is refreshed (R35). -/
def refreshRow (s : State) : State :=
  { s with drc := { s.drc with debt := s.drc.debt - 1, row := (s.drc.row + 1) % Config.dramRows } }

/-- A refresh falls due (R35). -/
def refreshDue (s : State) : State :=
  if s.drc.started then { s with drc := { s.drc with debt := min Config.maxDebt (s.drc.debt + 1) } } else s

/-- What a performed write-back means to the MEU: the flags as stored, and the tail values performed (R15, R170, R172). -/
def tellMeu (off : Nat) (w : Word) (s : State) : State :=
  if off = flagsOff then whenFree (.meuFlags w) (takeFlags w) s
  else if off = tailOff then s.updMeu (Meu.reportTail w)
  else s

/-- The entry at the head of the write-back queue is performed (R39); the PAL's pass counts it (R123), and so does FORMAT (R19). -/
def performWriteBack (u : Update) (s : State) : State :=
  let w := u.kind.perform (s.image u.off)
  let s := { s with wra := { s.wra with queue := s.wra.queue.drop 1 } }
  let s := (s.storeImage u.off w).updPal fun p =>
    { p with posted := p.posted.filter (· != u.off) }
  markFormatted (if s.live then tellMeu u.off w s else s)

/-- The image offset a read-back request reads. -/
def ReadRequest.off : ReadRequest → Nat
  | .verify i _ k => fruOff i k
  | .header k => k
  | .recover off => off

/-- A read-back request is answered (R39, R72, R175, R176). -/
def performReadBack (r : ReadRequest) (s : State) : State :=
  let w := s.image r.off
  let s := { s with wra := { s.wra with reads := s.wra.reads.drop 1 } }
  match r with
  | .verify i n _ => whenFree (.invAnswer i n w) (takeVerifyAnswer i n w) s
  | .header _ => takeHeader w s
  | .recover off => takeRecoverAnswer off w s

/-! ## The port (R6, R8, R12, R13, R15, R17, R171) -/

/-- The word a processor write leaves in an image word of this kind, over the word stored. -/
def portStore (k : WordKind) (head tail : Nat) (stored data : Word) : Word :=
  match k with
  | .settings fs => storeFields fs stored data
  | .prefs => prefsWord (cutPrefs [] (prefEntries data))
  | .ringHead => putField 0 (ringHeadStore head tail (getField data 0 16))
  | .command _ | .marker => 0#32
  | .flags => flagsCleared stored data
  | _ => stored

/-- The notice a processor write sends once it has been performed, `w` being the word as stored (R10, R14). -/
def portNotice (k : WordKind) (off : Nat) (w data : Word) (s : State) : State :=
  match k with
  | .settings _ | .prefs | .ringHead => settingNotice off w s
  | .command c => if notifies c data then commandNotice c s else s
  | .flags => whenFree (.meuFlags w) (takeFlags w) s
  | _ => s

/-- A processor write to an image word is performed. -/
def performImageWrite (off : Nat) (data : Word) (s : State) : State :=
  let k := kindAt off
  if discardsWrite k then s
  else
    let stored := s.image off
    let w := portStore k (getField stored 0 16) s.meu.tail stored data
    portNotice k off w data (s.storeImage off w)

/-- The processor's access is performed, and ends (R23). -/
def performPort (a : PortAccess) (s : State) : State :=
  match a with
  | .read addr =>
    let w := match imageOffset addr.toNat with
      | some off => if assigned off then s.image off else 0#32
      | none => memRead s.mem addr.toNat
    takeStrobe (endAccess (some w) s)
  | .write addr data =>
    let s := match imageOffset addr.toNat with
      | some off => performImageWrite off data s
      | none => s.storeWord addr.toNat data
    takeStrobe (endAccess none s)

/-! ## The links (R8, R26, R29) -/

/-- A merge into an S word: a field the mask touches is brought into its range, and every other bit is as stored (R8, R11). -/
def mergeStore (fs : List FieldSpec) (mask stored data : Word) : Word :=
  let merged := mergeBits mask stored data
  fs.foldl (fun acc f =>
    let m := fieldMask f.lo f.width
    if m &&& mask = 0#32 then acc else mergeBits m acc (f.store stored merged)) merged

/-- The word a buffer entry leaves over the word stored. -/
def BufferEntry.store (e : BufferEntry) (stored : Word) : Word :=
  match e.mask, kindAt e.off with
  | none, _ => e.data
  | some m, .blade _ fs => mergeStore fs m stored e.data
  | some m, _ => mergeBits m stored e.data

/-- The oldest entry of a link's write buffer is performed (R29). -/
def performEntry (i : Slot) (e : BufferEntry) (s : State) : State :=
  let w := e.store (s.image e.off)
  bladeNotice i e.off w ((s.storeImage e.off w).updLink i fun l => { l with buffer := l.buffer.drop 1 })

/-- The oldest requested read of a link is performed; the word of a frame already released is dropped (R26). -/
def performRead (i : Slot) (r : LinkRead) (s : State) : State :=
  let w := s.image r.off
  let s := s.updLink i fun l => { l with reads := l.reads.drop 1 }
  if r.live then s.updFrame i fun f => { f with answer := some w } else s

/-- A link's access is performed: its oldest buffered word, else its oldest read (R29, R34). -/
def performLink (i : Slot) (s : State) : State :=
  let s := { s with drc := { s.drc with lastLink := i } }
  match s.links[i].buffer, s.links[i].reads with
  | e :: _, _ => performEntry i e s
  | [], r :: _ => performRead i r s
  | [], [] => s

/-! ## Performing -/

/-- One access is performed. -/
def performAccess : Access → State → State
  | .refresh => refreshRow
  | .writeBack u => performWriteBack u
  | .readBack r => performReadBack r
  | .port a => performPort a
  | .link i => performLink i

/-- The arbiter takes the first waiting access and performs it (R34). -/
def performNext (s : State) : State :=
  match nextAccess s with
  | some a => performAccess a s
  | none => s

/-- The next access, if it satisfies a condition. -/
def performIf (p : Access → Bool) (s : State) : State :=
  match nextAccess s with
  | some a => if p a then performAccess a s else s
  | none => s

/-- Is an access a read-back of this kind? -/
def Access.isHeader : Access → Bool
  | .readBack (.header _) => true
  | _ => false

def Access.isRecover : Access → Bool
  | .readBack (.recover _) => true
  | _ => false

def Access.isVerify (i : Slot) : Access → Bool
  | .readBack (.verify j _ _) => j == i
  | _ => false

def Access.isPort : Access → Bool
  | .port _ => true
  | _ => false

def Access.isLink (i : Slot) : Access → Bool
  | .link j => j == i
  | _ => false

def Access.isWriteBack : Access → Bool
  | .writeBack _ => true
  | _ => false

/-! ## Commands of the processor's bus and of a blade -/

/-- The processor asserts a strobe. Where the port takes the access and the arbiter is free to serve it next, it is performed
at once; otherwise it waits for its turn (notes/assumptions/11.md). -/
def portCommand (a : PortAccess) (s : State) : State :=
  let busy := s.pmp.holding.isSome
  let s := assertStrobe a s
  if busy then s else performIf Access.isPort s

/-- The processor writes an image word. -/
def imageCommand (off : Nat) (data : Word) (s : State) : State := portCommand (.write (imageAddress off) data) s

/-- May a STORE word at this window offset go out now: no frame is open, or a taken STORE frame stands at it, at a word
boundary? -/
def storeReady (s : State) (i : Slot) (off : Nat) : Bool :=
  match s.links[i].frame with
  | none => true
  | some f => !f.disregarded && f.command == .store && f.header == 2 && f.offset == off && f.part.isEmpty

/-- A blade stores a word at a window offset. Where it is the link's only buffered word and the arbiter is free to serve the
link next, it is performed at once; otherwise it waits for its turn (notes/assumptions/11.md). -/
def bladeCommand (i : Slot) (off : Nat) (data : Word) (s : State) : State :=
  if storeReady s i off then
    let alone := s.links[i].buffer.isEmpty
    let s := storeFrame i (BitVec.ofNat 16 off) data s
    if alone && !s.links[i].buffer.isEmpty then performIf (Access.isLink i) s else s
  else s

/-- A FORMAT ends with its marker write, which is performed if it is the one write left (R19). -/
def lastWrite (s : State) : State :=
  match s.phase with
  | .formatting _ cursor count =>
    if formatQueued cursor count && s.wra.queue.length == 1 then performIf Access.isWriteBack s else s
  | _ => s

/-! ## The write-back queue and the read-back list -/

/-- A waiting update is taken into a freed entry; in FORMAT, the next of its writes (R38, R19). -/
def updateTaken (s : State) : State := feedFormat { s with wra := s.wra.takeWaiting }

/-- A waiting read-back request is taken into the list (R39). -/
def requestTaken (s : State) : State := { s with wra := s.wra.takeRequest }

end Sys2Proof.Machine
end

