-- ==== Sys2Proof/Machine/Tick.lean ====
section
/-! DEFINITION. The chassis tick, 1 ms (00_scope, Time): timers count, expiries act, lines are read, the clock and the blink counter
advance. It is what the block does of itself when no command waits (notes/assumptions/6.md). -/

namespace Sys2Proof.Machine

/-! ## Counting -/

/-- A running timer one tick on. -/
def countDown (t : Timer) : Timer := t.map (· - 1)

/-- A timer that has run out. -/
def isOut (t : Timer) : Bool := t == some 0

def SlotSeq.tick (q : SlotSeq) : SlotSeq :=
  { q with
    debounce := countDown q.debounce, activityTimer := countDown q.activityTimer
    seq := q.seq.map fun t => { t with left := t.left - 1 } }

def ModuleSense.tick (b : ModuleSense) : ModuleSense := { b with debounce := countDown b.debounce, retry := countDown b.retry }

def Psu.tick (p : Psu) : Psu :=
  { p with
    start := countDown p.start, restart := countDown p.restart, decay := countDown p.decay, alertTimer := countDown p.alertTimer }

def Fan.tick (f : Fan) : Fan :=
  { f with presence := countDown f.presence, spin := countDown f.spin, probeTimer := countDown f.probeTimer }

def Uplink.tick (u : Uplink) : Uplink :=
  { u with power := countDown u.power, link := countDown u.link, decay := countDown u.decay }

def Placement.tick (p : Placement) : Placement := { p with settle := p.settle.map fun t => { t with left := t.left - 1 } }

/-- Every timer one tick on. -/
def countTimers (s : State) : State :=
  { s with
    ssq := { s.ssq with slots := s.ssq.slots.map SlotSeq.tick }
    inv := { s.inv with bays := s.inv.bays.map ModuleSense.tick }
    psm := { s.psm with bays := s.psm.bays.map Psu.tick }
    pal := { s.pal with slots := s.pal.slots.map fun a => { a with deadline := countDown a.deadline } }
    clc := { s.clc with
      fans := s.clc.fans.map Fan.tick, slots := s.clc.slots.map fun t => { t with fresh := countDown t.fresh } }
    ulc := { s.ulc with bays := s.ulc.bays.map Uplink.tick, slots := s.ulc.slots.map Placement.tick } }

/-! ## Expiries -/

/-- One event, if a condition holds. -/
def reactIf (c : State → Bool) (f : State → State) (s : State) : State := if c s then react f s else s

/-- The event of a row of the table, where a condition holds and its block is not held up: a timer that has run out, or a line that has
changed, acts at a later tick otherwise (R38). Where the queue has no room for it, it waits as the row's command would. -/
def reactRow (row : Instr) (c : State → Bool) (s : State) : State :=
  reactIf (fun s => c s && !s.holdsBack (.event row)) (whenFree (.event row) (eventOf row)) s

/-- The row of the table that an expiry of a slot's sequence timer is, by what the timer serves (R44). -/
def seqRow (i : Slot) : SeqWait → Instr
  | .standbyTimeout => .standbyTimeout i
  | .standbyStep => .standbyStepDelayExpiry i
  | .identity => .identityTimeout i
  | .mainTimeout => .mainTimeout i
  | .mainStep => .mainStepDelayExpiry i
  | .mainDown => .mainDownDelayExpiry i
  | .standbyDown => .standbyDownDelayExpiry i

/-- The expiry of the sequence timer, whatever it serves (R44). -/
def seqExpiry (i : Slot) (s : State) : State :=
  match s.ssq.slots[i].seq with
  | some t => reactRow (seqRow i t.wait) (fun _ => t.left == 0) s
  | none => s

/-- The link debounce of a bay expires, whichever way it serves (R149). -/
def linkExpiry (b : UplinkBay) (s : State) : State :=
  if s.ulc.bays[b].state = .linkDown then linkUpExpiry b s else linkDownExpiry b s

def slotExpiries (i : Slot) (s : State) : State :=
  let s := reactRow (.presenceDebounceExpiry i) (fun s => isOut s.ssq.slots[i].debounce) s
  let s := seqExpiry i s
  let s := reactRow (.activityTimerExpiry i) (fun s => isOut s.ssq.slots[i].activityTimer) s
  let s := reactRow (.reduceDeadline i) (fun s => isOut s.pal.slots[i].deadline) s
  let s := reactIf (fun s => isOut s.clc.slots[i].fresh) (freshnessExpiry i) s
  reactIf (fun s => match s.ulc.slots[i].settle with
    | some t => t.left == 0
    | none => false) (settleExpiry i) s

def retryExpiries (b : ModuleBay) (s : State) : State := reactRow (.retryTimerExpiry b) (fun s => isOut s.inv.bays[b].retry) s

def bayExpiries (b : ModuleBay) (s : State) : State :=
  retryExpiries b (reactRow (.modulePresenceDebounceExpiry b) (fun s => isOut s.inv.bays[b].debounce) s)

def psuExpiries (b : PsuBay) (s : State) : State :=
  let s := reactRow (.startTimerExpiry b) (fun s => isOut s.psm.bays[b].start) s
  let s := reactRow (.restartTimerExpiry b) (fun s => isOut s.psm.bays[b].restart) s
  let s := reactRow (.alertDebounceExpiry b) (fun s => isOut s.psm.bays[b].alertTimer) s
  reactRow (.faultDecayExpiry b) (fun s => isOut s.psm.bays[b].decay) s

def fanExpiries (p : FanPos) (s : State) : State :=
  let s := reactIf (fun s => isOut s.clc.fans[p].presence) (fanPresenceExpiry p) s
  let s := reactIf (fun s => isOut s.clc.fans[p].spin) (spinUpEnd p) s
  reactIf (fun s => isOut s.clc.fans[p].probeTimer) (probeExpiry p) s

def uplinkExpiries (b : UplinkBay) (s : State) : State :=
  let s := reactIf (fun s => isOut s.ulc.bays[b].power) (powerExpiry b) s
  let s := reactIf (fun s => isOut s.ulc.bays[b].link) (linkExpiry b) s
  reactIf (fun s => isOut s.ulc.bays[b].decay) (flapDecayExpiry b) s

/-- Every expiry of the tick, each an event of its own. -/
def expiries (s : State) : State :=
  forEach allUplinks uplinkExpiries
    (forEach allFans fanExpiries (forEach allPsuBays psuExpiries (forEach allModuleBays bayExpiries (forEach allSlots slotExpiries s))))

/-! ## Lines -/

/-- Does a level act: it changed, or a wait is for it? -/
def acts (held level waitsFor : Bool) : Bool := held != level || (level && waitsFor)

/-- The rows of the power-good lines of a slot as they stand. -/
def sbyPgRow (i : Slot) (level : Bool) : Instr := if level then .sbyPgGood i else .sbyPgLost i
def mainPgRow (i : Slot) (level : Bool) : Instr := if level then .mainPgGood i else .mainPgLost i

/-- The row of a supply's PWR_OK as it stands. -/
def pwrOkRow (b : PsuBay) (level : Bool) : Instr := if level then .pwrOkGood b else .pwrOkLost b

/-- The lines of a slot; where both power-good lines are lost in one tick, SBY_PG is read first (R52). -/
def slotLines (i : Slot) (s : State) : State :=
  let s := reactRow (.slotRawReadingChange i s.pins.pres[i] s.pins.latch[i])
    (fun s => s.ssq.slots[i].raw != readingOfLines s.pins.pres[i] s.pins.latch[i]) s
  let s := reactRow (sbyPgRow i s.pins.sbyPg[i])
    (fun s => let q := s.ssq.slots[i]; acts q.sbyPg s.pins.sbyPg[i] (q.waits .standbyTimeout)) s
  reactRow (mainPgRow i s.pins.mainPg[i])
    (fun s => let q := s.ssq.slots[i]; acts q.mainPg s.pins.mainPg[i] (q.waits .mainTimeout)) s

def bayLines (b : ModuleBay) (s : State) : State :=
  reactRow (.modulePresenceChange b (s.pins.bayPres b)) (fun s => s.inv.bays[b].raw != s.pins.bayPres b) s

def psuLines (b : PsuBay) (s : State) : State :=
  let s := reactRow (pwrOkRow b s.pins.pwrOk[b])
    (fun s => acts s.psm.bays[b].pwrOk s.pins.pwrOk[b] (s.psm.bays[b].state == .starting)) s
  reactRow (.alertRawChange b s.pins.alert[b]) (fun s => s.psm.bays[b].alertRaw != s.pins.alert[b]) s

def fanLines (p : FanPos) (s : State) : State :=
  reactIf (fun s => s.clc.fans[p].raw != s.pins.fanPres[p]) (fun s => readFanPresence p s.pins.fanPres[p] s) s

/-- Does a reading of LINK_UP act: it changed, or its debounce is not running where it should (R149)? -/
def linkActs (u : Uplink) (level : Bool) : Bool :=
  u.linkUp != level || (u.link.isNone && match u.state with
    | .linkDown => level
    | .up | .held => !level
    | _ => false)

def uplinkLines (b : UplinkBay) (s : State) : State :=
  let s := reactIf (fun s => acts s.ulc.bays[b].modPg s.pins.modPg[b] (s.ulc.bays[b].state == .powering))
    (fun s => readModPg b s.pins.modPg[b] s) s
  reactIf (fun s => linkActs s.ulc.bays[b] s.pins.linkUp[b]) (fun s => readLinkUp b s.pins.linkUp[b] s) s

/-- Every line as it stands is read, each change an event of its own. -/
def readLines (s : State) : State :=
  forEach allUplinks uplinkLines
    (forEach allFans fanLines (forEach allPsuBays psuLines (forEach allModuleBays bayLines (forEach allSlots slotLines s))))

/-! ## The tick -/

/-- The blink counter one tick on (R65). -/
def countBlink (s : State) : State := s.updSsq fun q => { q with blink := (q.blink + 1) % Config.blinkCycle }

/-- The next phase boundary of the blink patterns after a counter value: a multiple of 500, or 125 beyond one (R65). -/
def nextEdge (n : Nat) : Nat :=
  let base := n / 500 * 500
  if n < base + 125 then base + 125 else (base + 500) % Config.blinkCycle

/-- The sub-second count one tick on (R169). -/
def countSecond (s : State) : State :=
  if s.meu.sub + 1 < 1000 then s.updMeu fun m => { m with sub := m.sub + 1 } else clockSecond s

/-- The tach gate and the control period one tick on: at the 1,000th tick the gate ends, and then the period (R130, R139). -/
def countGate (s : State) : State :=
  let s := countEdges s
  if s.clc.gate + 1 < Config.gate then { s with clc := { s.clc with gate := s.clc.gate + 1 } }
  else controlPeriod (tachGateEnd (Vector.replicate 8 0) { s with clc := { s.clc with gate := 0 } })

/-- The refreshes that fall due in a tick (R35). -/
def tickDues (s : State) : State :=
  if s.drc.started then { s with drc := { s.drc with debt := min Config.maxDebt (s.drc.debt + Config.duesPerTick) } } else s

/-- The reader begins an attempt if it can, and the bay at the head of its queue is not held up (R81, R68). -/
def readerTurn (s : State) : State :=
  if s.inv.reading.isSome || s.holdsBack (.event .readerAttemptStart) then s
  else whenFree (.event .readerAttemptStart) readerStart s

/-- One tick while the ports are open. -/
def liveTick (s : State) : State :=
  let s := readLines (expiries (countTimers s))
  react (fun s => countGate (countSecond (countBlink (readerTurn s)))) (tickDues s)

/-- One tick in the identity reads: the retry timers and the reader alone (R177). -/
def readsTick (s : State) : State :=
  let s := { s with inv := { s.inv with bays := s.inv.bays.map ModuleSense.tick } }
  react (fun s => countBlink (readerTurn s)) (forEach allModuleBays retryExpiries (tickDues s))

/-- One chassis tick (00_scope, Time; R35, R65). -/
def tick (s : State) : State :=
  if s.phase = .operating then liveTick s
  else if s.phase = .identityReads then readsTick s
  else if s.phase = .startup then s
  else countBlink (tickDues s)

/-! ## Where a command acts -/

/-- An event of the chassis acts while the ports are open, and is disregarded otherwise (R174, R175). -/
def whenLive (f : State → State) (s : State) : State := if s.live then react f s else s

/-- An event of the Module Identity Reader acts in the identity reads too (R177). -/
def whenReading (f : State → State) (s : State) : State :=
  if s.live || s.phase == .identityReads then react f s else s

/-- An event of a line, a timer, the reader or the ring acts on its block, or waits (R38). -/
def onBlock (c : Instr) (f : State → State) (s : State) : State := whenFree (.event c) f s

/-- The presence line of a module bay as the chassis drives it. -/
def Pins.setBayPres (b : ModuleBay) (level : Bool) (p : Pins) : Pins :=
  match baySide b with
  | .inl k => { p with psuPres := p.psuPres.set k level }
  | .inr u => { p with modPres := p.modPres.set u level }

end Sys2Proof.Machine
end

