-- ==== Sys2Proof/Machine/AllocationCommands.lean ====
section
/-! DEFINITION. The events of the power allocator's own (chapter 6). -/

namespace Sys2Proof.Machine

/-- REDUCE_DEADLINE (R120). -/
def execReduceDeadline (slot : Slot) (s : State) : Result := .next (whenLive (onBlock (.reduceDeadline slot) (reduceDeadline slot)) s)

/-- PASS_COMPLETE (R123). -/
def execPassComplete (s : State) : Result := .next (whenLive (passComplete) s)

end Sys2Proof.Machine
end

