-- ==== Sys2Proof/Machine/BladeCommands.lean ====
section
/-! DEFINITION. A blade's writes of its own record and FRU area (R4, R14). Each is one STORE word; what it does follows when the word is
performed. -/

namespace Sys2Proof.Machine

/-- REQUEST (R48–R50, R107). -/
def execRequest (slot : Slot) (data : Word) (s : State) : Result := .next (react (bladeCommand slot 0 data) s)

/-- DRAWN_REPORT (R119, R125). -/
def execDrawnReport (slot : Slot) (data : Word) (s : State) : Result := .next (react (bladeCommand slot 1 data) s)

/-- THERMAL_READING (R134). -/
def execThermalReading (slot : Slot) (which : ThermalWord) (data : Word) (s : State) : Result :=
  .next (react (bladeCommand slot (thermalIndex which) data) s)

/-- COMMIT (R16, R71). -/
def execCommit (slot : Slot) (data : Word) (s : State) : Result := .next (react (bladeCommand slot 15 data) s)

/-- FRU_AREA_WRITE (R73). -/
def execFruAreaWrite (slot : Slot) (word : Fin 64) (data : Word) (s : State) : Result :=
  .next (react (bladeCommand slot (0x40 + word.val) data) s)

end Sys2Proof.Machine
end

