-- ==== Sys2Proof/Machine/CoolingCommands.lean ====
section
/-! DEFINITION. The events of the fans and of the cooling controller's timers (chapter 7). -/

namespace Sys2Proof.Machine

/-- FAN_PRESENCE_CHANGE (R129). -/
def execFanPresenceChange (position : FanPos) (present : Bool) (s : State) : Result :=
  .next (whenLive (readFanPresence position present) (s.updPins fun p => { p with fanPres := p.fanPres.set position present }))

/-- FAN_PRESENCE_DEBOUNCE_EXPIRY (R129). -/
def execFanPresenceDebounceExpiry (position : FanPos) (s : State) : Result :=
  .next (whenLive (fanPresenceExpiry position) s)

/-- TACH_GATE_END (R130, R132): the gate ends, and FAN_TACH goes on as the gate has shown it. -/
def execTachGateEnd (edges : Vector Nat 8) (s : State) : Result :=
  .next (whenLive (tachGateEnd edges) (s.updPins fun p => { p with fanTach := gateRates edges s.clc }))

/-- SPIN_UP_END (R131). -/
def execSpinUpEnd (position : FanPos) (s : State) : Result := .next (whenLive (spinUpEnd position) s)

/-- PROBE_TIMER_EXPIRY (R133). -/
def execProbeTimerExpiry (position : FanPos) (s : State) : Result := .next (whenLive (probeExpiry position) s)

/-- FRESHNESS_TIMER_EXPIRY (R134, R135). -/
def execFreshnessTimerExpiry (slot : Slot) (s : State) : Result := .next (whenLive (freshnessExpiry slot) s)

/-- CONTROL_PERIOD (R139): the period begins again. -/
def execControlPeriod (s : State) : Result :=
  .next (whenLive (fun s => controlPeriod { s with clc := { s.clc with gate := 0 } }) s)

end Sys2Proof.Machine
end

