-- ==== Sys2Proof/Machine/InventoryCommands.lean ====
section
/-! DEFINITION. The events of the inventory: module presence, blade verification and the Module Identity Reader (chapter 4). -/

namespace Sys2Proof.Machine

/-- MODULE_PRESENCE_CHANGE (R80). -/
def execModulePresenceChange (bay : ModuleBay) (present : Bool) (s : State) : Result :=
  .next (whenLive (onBlock (.modulePresenceChange bay present) (readModulePresence bay present)) (s.updPins (Pins.setBayPres bay present)))

/-- MODULE_PRESENCE_DEBOUNCE_EXPIRY (R80, R83). -/
def execModulePresenceDebounceExpiry (bay : ModuleBay) (s : State) : Result :=
  .next (whenLive (onBlock (.modulePresenceDebounceExpiry bay) (modulePresenceExpiry bay)) s)

/-- VERIFY_WORD_ANSWER (R72): a read-back of the slot, if it is the next access, is performed and answered. -/
def execVerifyWordAnswer (slot : Slot) (s : State) : Result := .next (whenLive (performIf (Access.isVerify slot)) s)

/-- READER_ATTEMPT_START (R81). -/
def execReaderAttemptStart (s : State) : Result := .next (whenReading (onBlock (.readerAttemptStart) (readerStart)) s)

/-- READER_WORD0_READ (R81, R69). -/
def execReaderWord0Read (data : Word) (s : State) : Result := .next (whenReading (onBlock (.readerWord0Read data) (readerWord0 data)) s)

/-- READER_RECORD_READ (R81, R84). -/
def execReaderRecordRead (words : List Word) (s : State) : Result := .next (whenReading (onBlock (.readerRecordRead words) (readerRecord words)) s)

/-- READER_NACK (R81, R82): an address or offset byte is not acknowledged. -/
def execReaderNack (s : State) : Result := .next (whenReading (onBlock .readerNack readerNack) s)

/-- READER_SCL_TIMEOUT (R81, R82): SCL has been held low for more than 25 ms. -/
def execReaderSclTimeout (s : State) : Result := .next (whenReading (onBlock .readerSclTimeout readerSclTimeout) s)

/-- RETRY_TIMER_EXPIRY (R82). -/
def execRetryTimerExpiry (bay : ModuleBay) (s : State) : Result := .next (whenReading (onBlock (.retryTimerExpiry bay) (retryExpiry bay)) s)

end Sys2Proof.Machine
end

