-- ==== Sys2Proof/Machine/LinkCommands.lean ====
section
/-! DEFINITION. The commands of the slot links' frames (2.2, 2.4). -/

namespace Sys2Proof.Machine

/-- FETCH (R26). -/
def execFetch (slot : Slot) (offset : BitVec 16) (clocks : Nat) (s : State) : Result :=
  .next (react (fetchFrame slot offset clocks) s)

/-- PEEK (R26). -/
def execPeek (slot : Slot) (clocks : Nat) (s : State) : Result := .next (react (peekFrame slot clocks) s)

/-- STORE (R27, R29). -/
def execStore (slot : Slot) (offset : BitVec 16) (data : Word) (s : State) : Result :=
  .next (react (storeFrame slot offset data) s)

/-- MERGE (R28, R29). -/
def execMerge (slot : Slot) (offset : BitVec 16) (mask data : Word) (s : State) : Result :=
  .next (react (mergeFrame slot offset mask data) s)

/-- UNKNOWN_COMMAND (R25, R30). -/
def execUnknownCommand (slot : Slot) (command : Byte) (s : State) : Result :=
  .next (react (unknownFrame slot command) s)

/-- FRAME_END (R27, R30, R33). -/
def execFrameEnd (slot : Slot) (bytes : List Byte) (s : State) : Result := .next (react (endFrame slot bytes) s)

end Sys2Proof.Machine
end

