-- ==== Sys2Proof/Machine/MemoryCommands.lean ====
section
/-! DEFINITION. The commands of the memory path: the arbiter, refresh, the write-back and read-back agent, and the processor port's strobe
(chapter 2). -/

namespace Sys2Proof.Machine

/-- DRAM_ACCESS_PERFORMED (R34). -/
def execDramAccessPerformed (s : State) : Result := .next (react performNext s)

/-- REFRESH_DUE (R35). -/
def execRefreshDue (s : State) : Result := .next (react refreshDue s)

/-- WRITEBACK_UPDATE_TAKEN (R38), after which what the blocks held up for it goes on (R68, R98, R101). -/
def execWritebackUpdateTaken (s : State) : Result := .next (resumeHeld (react updateTaken s))

/-- READBACK_REQUEST_TAKEN (R39). -/
def execReadbackRequestTaken (s : State) : Result := .next (react requestTaken s)

/-- STROBE_RELEASE (R23, R24). -/
def execStrobeRelease (s : State) : Result := .next (react releaseStrobe s)

/-- PLAIN_WRITE (R1, R5–R8, R23): an access of the processor port, or a STORE word of a blade. -/
def execPlainWrite (access : PlainAccess) (s : State) : Result :=
  .next (react (match access with
    | .processor a => portCommand a
    | .link i off data => bladeCommand i off.toNat data) s)

end Sys2Proof.Machine
end

