-- ==== Sys2Proof/Machine/ProcessorCommands.lean ====
section
/-! DEFINITION. The processor's writes of commands, settings, the marker, the group flags and the ring head (sections 1.4, 1.5, 1.8, 1.10).
Each is the strobe of one write; what it does follows when the write is performed (R6, R10, R14). -/

namespace Sys2Proof.Machine

/-- MODE_REQUEST (R165). -/
def execModeRequest (data : Word) (s : State) : Result := .next (react (imageCommand 0x02 data) s)

/-- ABORT (R168, R61). -/
def execAbort (data : Word) (s : State) : Result := .next (react (imageCommand 0x03 data) s)

/-- CLOCK_LOAD (R169). -/
def execClockLoad (data : Word) (s : State) : Result := .next (react (imageCommand 0x12 data) s)

/-- FAULT_CLEAR (R58). -/
def execFaultClear (slot : Slot) (data : Word) (s : State) : Result :=
  .next (react (imageCommand (settingsOff slot 6) data) s)

/-- LINK_CLEAR (R32). -/
def execLinkClear (slot : Slot) (data : Word) (s : State) : Result :=
  .next (react (imageCommand (settingsOff slot 7) data) s)

/-- PSU_CLEAR (R97). -/
def execPsuClear (bay : PsuBay) (data : Word) (s : State) : Result :=
  .next (react (imageCommand (0xE5 + bay.val) data) s)

/-- UPLINK_CLEAR (R151). -/
def execUplinkClear (bay : UplinkBay) (data : Word) (s : State) : Result :=
  .next (react (imageCommand (0xEB + bay.val) data) s)

/-- IMAGE_MARKER_WRITE (R17). -/
def execImageMarkerWrite (data : Word) (s : State) : Result := .next (react (imageCommand 0 data) s)

/-- GROUP_FLAGS_CLEAR (R15, R172). -/
def execGroupFlagsClear (data : Word) (s : State) : Result := .next (react (imageCommand flagsOff data) s)

/-- EVENT_RING_HEAD (R171). -/
def execEventRingHead (data : Word) (s : State) : Result := .next (react (imageCommand 0x14 data) s)

/-- EVENT_GROUP_ENABLES (R172). -/
def execEventGroupEnables (data : Word) (s : State) : Result := .next (react (imageCommand 0x13 data) s)

/-- REDUNDANCY_POLICY (R99, R12). -/
def execRedundancyPolicy (data : Word) (s : State) : Result := .next (react (imageCommand 0x04 data) s)

/-- MARGIN (R99). -/
def execMargin (data : Word) (s : State) : Result := .next (react (imageCommand 0x05 data) s)

/-- BASE_LOAD (R109). -/
def execBaseLoad (data : Word) (s : State) : Result := .next (react (imageCommand 0x06 data) s)

/-- DEFAULT_STANDBY_ALLOWANCE (R105). -/
def execDefaultStandbyAllowance (data : Word) (s : State) : Result := .next (react (imageCommand 0x07 data) s)

/-- ENABLE (R47). -/
def execEnable (slot : Slot) (data : Word) (s : State) : Result :=
  .next (react (imageCommand (settingsOff slot 0) data) s)

/-- CLASS (R106, R12). -/
def execPowerClass (slot : Slot) (data : Word) (s : State) : Result :=
  .next (react (imageCommand (settingsOff slot 1) data) s)

/-- UPLINK_PREFERENCE_LIST (R13, R155). -/
def execUplinkPreferenceList (slot : Slot) (data : Word) (s : State) : Result :=
  .next (react (imageCommand (settingsOff slot 2) data) s)

/-- ACTIVITY_COUNT (R64). -/
def execActivityCount (slot : Slot) (data : Word) (s : State) : Result :=
  .next (react (imageCommand (settingsOff slot 3) data) s)

/-- ACTIVITY_ACTION (R64, R107, R12). -/
def execActivityAction (slot : Slot) (data : Word) (s : State) : Result :=
  .next (react (imageCommand (settingsOff slot 4) data) s)

/-- LOCATE (R66). -/
def execLocate (slot : Slot) (data : Word) (s : State) : Result :=
  .next (react (imageCommand (settingsOff slot 5) data) s)

/-- FORCED_THROTTLE (R126): the same word as LOCATE, its bit 8. -/
def execForcedThrottle (slot : Slot) (data : Word) (s : State) : Result :=
  .next (react (imageCommand (settingsOff slot 5) data) s)

/-- FLOOR_DUTY (R137, R144). -/
def execFloorDuty (zone : Zone) (data : Word) (s : State) : Result :=
  .next (react (imageCommand (zoneOff zone 0) data) s)

/-- FAN_WATTS_AT_FULL_DUTY (R142, R144). -/
def execFanWattsAtFullDuty (zone : Zone) (data : Word) (s : State) : Result :=
  .next (react (imageCommand (zoneOff zone 1) data) s)

/-- ZONE_CURVE_SETTING (R135, R144). -/
def execZoneCurveSetting (zone : Zone) (which : CurveWord) (data : Word) (s : State) : Result :=
  .next (react (imageCommand (zoneOff zone (curveIndex which)) data) s)

/-- T_CRIT (R136, R144). -/
def execTCrit (zone : Zone) (data : Word) (s : State) : Result := .next (react (imageCommand (zoneOff zone 5) data) s)

/-- MODULE_FLOOR_DUTY (R137, R144). -/
def execModuleFloorDuty (data : Word) (s : State) : Result := .next (react (imageCommand 0xE4 data) s)

end Sys2Proof.Machine
end

