-- ==== Sys2Proof/Machine/ResetCommands.lean ====
section
/-! DEFINITION. The commands of the resets and of image preparation (chapter 10, sections 1.10, 1.11). -/

namespace Sys2Proof.Machine

/-- POWER_ON_RESET (R174). -/
def execPowerOnReset (s : State) : Result := .next (powerOn s)

/-- DRC_STARTUP_DONE (R37, R19). -/
def execDrcStartupDone (s : State) : Result := .next (react drcStartupDone s)

/-- FORMAT_DONE (R19, R174, R177): the marker write, if it alone is left, and what follows FORMAT, each an event. -/
def execFormatDone (s : State) : Result := .next (formatDone (react lastWrite s))

/-- RESET_ASSERT (R175): RESET_N is asserted. -/
def execResetAssert (s : State) : Result := .next (resetAssert s)

/-- RESET_RELEASE (R175, R87): RESET_N is released. -/
def execResetRelease (pulses : Nat) (s : State) : Result := .next (react (resetRelease pulses) s)

/-- HEADER_READ_ANSWER (R17, R175): a header read, if it is the next access, is performed and answered. -/
def execHeaderReadAnswer (s : State) : Result := .next (react (performIf Access.isHeader) s)

/-- RECOVER_WORD_ANSWER (R176): a read of RECOVER, if it is the next access, is performed and answered. -/
def execRecoverWordAnswer (s : State) : Result := .next (react (performIf Access.isRecover) s)

/-- ADOPTION (R178–R180). -/
def execAdoption (s : State) : Result := .next (react adoption s)

end Sys2Proof.Machine
end

