-- ==== Sys2Proof/Machine/SlotCommands.lean ====
section
/-! DEFINITION. The events of the slot lines and of the slot sequencer's timers (chapter 3). -/

namespace Sys2Proof.Machine

/-- SLOT_RAW_READING_CHANGE (R41, R42). -/
def execSlotRawReadingChange (slot : Slot) (pres latch : Bool) (s : State) : Result :=
  .next (whenLive (onBlock (.slotRawReadingChange slot pres latch) (readPresence slot pres latch)) (s.updPins fun p => { p with pres := p.pres.set slot pres, latch := p.latch.set slot latch }))

/-- PRESENCE_DEBOUNCE_EXPIRY (R41, R42, R47, R59). -/
def execPresenceDebounceExpiry (slot : Slot) (s : State) : Result := .next (whenLive (onBlock (.presenceDebounceExpiry slot) (presenceExpiry slot)) s)

/-- SBY_PG_GOOD (R45). -/
def execSbyPgGood (slot : Slot) (s : State) : Result :=
  .next (whenLive (onBlock (.sbyPgGood slot) (readSbyPgGood slot)) (s.updPins fun p => { p with sbyPg := p.sbyPg.set slot true }))

/-- SBY_PG_LOST (R57). -/
def execSbyPgLost (slot : Slot) (s : State) : Result :=
  .next (whenLive (onBlock (.sbyPgLost slot) (readSbyPgBad slot)) (s.updPins fun p => { p with sbyPg := p.sbyPg.set slot false }))

/-- MAIN_PG_GOOD (R52). -/
def execMainPgGood (slot : Slot) (s : State) : Result :=
  .next (whenLive (onBlock (.mainPgGood slot) (readMainPgGood slot)) (s.updPins fun p => { p with mainPg := p.mainPg.set slot true }))

/-- MAIN_PG_LOST (R52–R54, R57). -/
def execMainPgLost (slot : Slot) (s : State) : Result :=
  .next (whenLive (onBlock (.mainPgLost slot) (readMainPgBad slot)) (s.updPins fun p => { p with mainPg := p.mainPg.set slot false }))

/-- STANDBY_TIMEOUT (R45, R57). -/
def execStandbyTimeout (slot : Slot) (s : State) : Result := .next (whenLive (onBlock (.standbyTimeout slot) (standbyTimeout slot)) s)

/-- STANDBY_STEP_DELAY_EXPIRY (R45, R46). -/
def execStandbyStepDelayExpiry (slot : Slot) (s : State) : Result := .next (whenLive (onBlock (.standbyStepDelayExpiry slot) (standbyStep slot)) s)

/-- IDENTITY_TIMEOUT (R46, R57). -/
def execIdentityTimeout (slot : Slot) (s : State) : Result := .next (whenLive (onBlock (.identityTimeout slot) (identityTimeout slot)) s)

/-- MAIN_TIMEOUT (R52, R57). -/
def execMainTimeout (slot : Slot) (s : State) : Result := .next (whenLive (onBlock (.mainTimeout slot) (mainTimeout slot)) s)

/-- MAIN_STEP_DELAY_EXPIRY (R52, R53, R156). -/
def execMainStepDelayExpiry (slot : Slot) (s : State) : Result := .next (whenLive (onBlock (.mainStepDelayExpiry slot) (mainStep slot)) s)

/-- MAIN_DOWN_DELAY_EXPIRY (R55). -/
def execMainDownDelayExpiry (slot : Slot) (s : State) : Result := .next (whenLive (onBlock (.mainDownDelayExpiry slot) (mainDownEnd slot)) s)

/-- STANDBY_DOWN_DELAY_EXPIRY (R56). -/
def execStandbyDownDelayExpiry (slot : Slot) (s : State) : Result := .next (whenLive (onBlock (.standbyDownDelayExpiry slot) (standbyDownEnd slot)) s)

/-- ACTIVITY_TIMER_EXPIRY (R63). -/
def execActivityTimerExpiry (slot : Slot) (s : State) : Result := .next (whenLive (onBlock (.activityTimerExpiry slot) (activityExpiry slot)) s)

end Sys2Proof.Machine
end

