-- ==== Sys2Proof/Machine/SupplyCommands.lean ====
section
/-! DEFINITION. The events of the power supplies (chapter 5). -/

namespace Sys2Proof.Machine

/-- PWR_OK_GOOD (R89, R90). -/
def execPwrOkGood (bay : PsuBay) (s : State) : Result :=
  .next (whenLive (onBlock (.pwrOkGood bay) (readPwrOkGood bay)) (s.updPins fun p => { p with pwrOk := p.pwrOk.set bay true }))

/-- PWR_OK_LOST (R89, R91). -/
def execPwrOkLost (bay : PsuBay) (s : State) : Result :=
  .next (whenLive (onBlock (.pwrOkLost bay) (readPwrOkBad bay)) (s.updPins fun p => { p with pwrOk := p.pwrOk.set bay false }))

/-- START_TIMER_EXPIRY (R90, R92). -/
def execStartTimerExpiry (bay : PsuBay) (s : State) : Result := .next (whenLive (onBlock (.startTimerExpiry bay) (startExpiry bay)) s)

/-- RESTART_TIMER_EXPIRY (R92). -/
def execRestartTimerExpiry (bay : PsuBay) (s : State) : Result := .next (whenLive (onBlock (.restartTimerExpiry bay) (restartExpiry bay)) s)

/-- ALERT_RAW_CHANGE (R93). -/
def execAlertRawChange (bay : PsuBay) (level : Bool) (s : State) : Result :=
  .next (whenLive (onBlock (.alertRawChange bay level) (readAlert bay level)) (s.updPins fun p => { p with alert := p.alert.set bay level }))

/-- ALERT_DEBOUNCE_EXPIRY (R93, R96). -/
def execAlertDebounceExpiry (bay : PsuBay) (s : State) : Result := .next (whenLive (onBlock (.alertDebounceExpiry bay) (alertExpiry bay)) s)

/-- FAULT_DECAY_EXPIRY (R94). -/
def execFaultDecayExpiry (bay : PsuBay) (s : State) : Result := .next (whenLive (onBlock (.faultDecayExpiry bay) (faultDecayExpiry bay)) s)

end Sys2Proof.Machine
end

