-- ==== Sys2Proof/Machine/SystemCommands.lean ====
section
/-! DEFINITION. The events of the chassis clock, the event ring and the blink counter (chapter 9, 3.13). -/

namespace Sys2Proof.Machine

/-- CLOCK_SECOND (R169). -/
def execClockSecond (s : State) : Result := .next (whenLive (clockSecond) s)

/-- EVENT_RECORD_PERFORMED (R170). Like every report to the MEU it is disregarded until the ports open, in the identity reads too, where
records of IDENTITY events may have been performed: their tail follows once the ports are open (DESIGN CHOICE,
notes/assumptions/47.md). -/
def execEventRecordPerformed (s : State) : Result := .next (whenLive (onBlock .eventRecordPerformed takeRecordPerformed) s)

/-- RING_TAIL_PERFORMED (R170); disregarded until the ports open, as EVENT_RECORD_PERFORMED is (DESIGN CHOICE, notes/assumptions/47.md). -/
def execRingTailPerformed (s : State) : Result := .next (whenLive (takeTailPerformed) s)

/-- BLINK_COUNTER_WRAP (R65): the counter wraps to 0. -/
def execBlinkCounterWrap (s : State) : Result := .next (react (fun s => s.updSsq fun q => { q with blink := 0 }) s)

/-- LED_BLINK_EDGE (R65): the counter reaches the next phase boundary of its patterns. -/
def execLedBlinkEdge (s : State) : Result :=
  .next (react (fun s => s.updSsq fun q => { q with blink := nextEdge q.blink }) s)

end Sys2Proof.Machine
end

