-- ==== Sys2Proof/Machine/UplinkCommands.lean ====
section
/-! DEFINITION. The events of the uplink modules and of the uplink controller's timers (chapter 8). -/

namespace Sys2Proof.Machine

/-- MOD_PG_GOOD (R148). -/
def execModPgGood (bay : UplinkBay) (s : State) : Result :=
  .next (whenLive (readModPgGood bay) (s.updPins fun p => { p with modPg := p.modPg.set bay true }))

/-- MOD_PG_LOST (R148, R151). -/
def execModPgLost (bay : UplinkBay) (s : State) : Result :=
  .next (whenLive (readModPgBad bay) (s.updPins fun p => { p with modPg := p.modPg.set bay false }))

/-- POWER_TIMER_EXPIRY (R148, R151). -/
def execPowerTimerExpiry (bay : UplinkBay) (s : State) : Result := .next (whenLive (powerExpiry bay) s)

/-- LINK_UP_CHANGE (R149). -/
def execLinkUpChange (bay : UplinkBay) (level : Bool) (s : State) : Result :=
  .next (whenLive (readLinkUp bay level) (s.updPins fun p => { p with linkUp := p.linkUp.set bay level }))

/-- LINK_UP_DEBOUNCE_EXPIRY (R149). -/
def execLinkUpDebounceExpiry (bay : UplinkBay) (s : State) : Result := .next (whenLive (linkUpExpiry bay) s)

/-- LINK_DOWN_DEBOUNCE_EXPIRY (R149, R158, R162). -/
def execLinkDownDebounceExpiry (bay : UplinkBay) (s : State) : Result := .next (whenLive (linkDownExpiry bay) s)

/-- FLAP_DECAY_EXPIRY (R150). -/
def execFlapDecayExpiry (bay : UplinkBay) (s : State) : Result := .next (whenLive (flapDecayExpiry bay) s)

/-- SETTLE_TIMER_EXPIRY (R154, R160). -/
def execSettleTimerExpiry (slot : Slot) (s : State) : Result := .next (whenLive (settleExpiry slot) s)

end Sys2Proof.Machine
end

