-- ==== Sys2Proof/Machine/Dispatch.lean ====
section
/-! DEFINITION. The dispatch: one arm per command, each one direct call of its meaning. -/

namespace Sys2Proof.Machine

def exec (i : Instr) (s : State) : Host.Outcome State Fault Refusal :=
  match i with
  | .powerOnReset => Sys2Proof.Machine.execPowerOnReset s
  | .drcStartupDone => Sys2Proof.Machine.execDrcStartupDone s
  | .formatDone => Sys2Proof.Machine.execFormatDone s
  | .resetAssert => Sys2Proof.Machine.execResetAssert s
  | .resetRelease pulses => Sys2Proof.Machine.execResetRelease pulses s
  | .headerReadAnswer => Sys2Proof.Machine.execHeaderReadAnswer s
  | .recoverWordAnswer => Sys2Proof.Machine.execRecoverWordAnswer s
  | .adoption => Sys2Proof.Machine.execAdoption s
  | .dramAccessPerformed => Sys2Proof.Machine.execDramAccessPerformed s
  | .refreshDue => Sys2Proof.Machine.execRefreshDue s
  | .writebackUpdateTaken => Sys2Proof.Machine.execWritebackUpdateTaken s
  | .readbackRequestTaken => Sys2Proof.Machine.execReadbackRequestTaken s
  | .fetch slot offset clocks => Sys2Proof.Machine.execFetch slot offset clocks s
  | .peek slot clocks => Sys2Proof.Machine.execPeek slot clocks s
  | .store slot offset data => Sys2Proof.Machine.execStore slot offset data s
  | .merge slot offset mask data => Sys2Proof.Machine.execMerge slot offset mask data s
  | .unknownCommand slot command => Sys2Proof.Machine.execUnknownCommand slot command s
  | .frameEnd slot bytes => Sys2Proof.Machine.execFrameEnd slot bytes s
  | .plainWrite access => Sys2Proof.Machine.execPlainWrite access s
  | .modeRequest data => Sys2Proof.Machine.execModeRequest data s
  | .abort data => Sys2Proof.Machine.execAbort data s
  | .clockLoad data => Sys2Proof.Machine.execClockLoad data s
  | .faultClear slot data => Sys2Proof.Machine.execFaultClear slot data s
  | .linkClear slot data => Sys2Proof.Machine.execLinkClear slot data s
  | .psuClear bay data => Sys2Proof.Machine.execPsuClear bay data s
  | .uplinkClear bay data => Sys2Proof.Machine.execUplinkClear bay data s
  | .imageMarkerWrite data => Sys2Proof.Machine.execImageMarkerWrite data s
  | .groupFlagsClear data => Sys2Proof.Machine.execGroupFlagsClear data s
  | .eventRingHead data => Sys2Proof.Machine.execEventRingHead data s
  | .eventGroupEnables data => Sys2Proof.Machine.execEventGroupEnables data s
  | .redundancyPolicy data => Sys2Proof.Machine.execRedundancyPolicy data s
  | .margin data => Sys2Proof.Machine.execMargin data s
  | .baseLoad data => Sys2Proof.Machine.execBaseLoad data s
  | .defaultStandbyAllowance data => Sys2Proof.Machine.execDefaultStandbyAllowance data s
  | .enable slot data => Sys2Proof.Machine.execEnable slot data s
  | .powerClass slot data => Sys2Proof.Machine.execPowerClass slot data s
  | .uplinkPreferenceList slot data => Sys2Proof.Machine.execUplinkPreferenceList slot data s
  | .activityCount slot data => Sys2Proof.Machine.execActivityCount slot data s
  | .activityAction slot data => Sys2Proof.Machine.execActivityAction slot data s
  | .locate slot data => Sys2Proof.Machine.execLocate slot data s
  | .forcedThrottle slot data => Sys2Proof.Machine.execForcedThrottle slot data s
  | .floorDuty zone data => Sys2Proof.Machine.execFloorDuty zone data s
  | .fanWattsAtFullDuty zone data => Sys2Proof.Machine.execFanWattsAtFullDuty zone data s
  | .zoneCurveSetting zone which data => Sys2Proof.Machine.execZoneCurveSetting zone which data s
  | .tCrit zone data => Sys2Proof.Machine.execTCrit zone data s
  | .moduleFloorDuty data => Sys2Proof.Machine.execModuleFloorDuty data s
  | .request slot data => Sys2Proof.Machine.execRequest slot data s
  | .drawnReport slot data => Sys2Proof.Machine.execDrawnReport slot data s
  | .thermalReading slot which data => Sys2Proof.Machine.execThermalReading slot which data s
  | .commit slot data => Sys2Proof.Machine.execCommit slot data s
  | .fruAreaWrite slot word data => Sys2Proof.Machine.execFruAreaWrite slot word data s
  | .slotRawReadingChange slot pres latch => Sys2Proof.Machine.execSlotRawReadingChange slot pres latch s
  | .presenceDebounceExpiry slot => Sys2Proof.Machine.execPresenceDebounceExpiry slot s
  | .sbyPgGood slot => Sys2Proof.Machine.execSbyPgGood slot s
  | .sbyPgLost slot => Sys2Proof.Machine.execSbyPgLost slot s
  | .mainPgGood slot => Sys2Proof.Machine.execMainPgGood slot s
  | .mainPgLost slot => Sys2Proof.Machine.execMainPgLost slot s
  | .standbyTimeout slot => Sys2Proof.Machine.execStandbyTimeout slot s
  | .standbyStepDelayExpiry slot => Sys2Proof.Machine.execStandbyStepDelayExpiry slot s
  | .identityTimeout slot => Sys2Proof.Machine.execIdentityTimeout slot s
  | .mainTimeout slot => Sys2Proof.Machine.execMainTimeout slot s
  | .mainStepDelayExpiry slot => Sys2Proof.Machine.execMainStepDelayExpiry slot s
  | .mainDownDelayExpiry slot => Sys2Proof.Machine.execMainDownDelayExpiry slot s
  | .standbyDownDelayExpiry slot => Sys2Proof.Machine.execStandbyDownDelayExpiry slot s
  | .activityTimerExpiry slot => Sys2Proof.Machine.execActivityTimerExpiry slot s
  | .blinkCounterWrap => Sys2Proof.Machine.execBlinkCounterWrap s
  | .modulePresenceChange bay present => Sys2Proof.Machine.execModulePresenceChange bay present s
  | .modulePresenceDebounceExpiry bay => Sys2Proof.Machine.execModulePresenceDebounceExpiry bay s
  | .verifyWordAnswer slot => Sys2Proof.Machine.execVerifyWordAnswer slot s
  | .readerAttemptStart => Sys2Proof.Machine.execReaderAttemptStart s
  | .readerWord0Read data => Sys2Proof.Machine.execReaderWord0Read data s
  | .readerRecordRead words => Sys2Proof.Machine.execReaderRecordRead words s
  | .readerNack => Sys2Proof.Machine.execReaderNack s
  | .readerSclTimeout => Sys2Proof.Machine.execReaderSclTimeout s
  | .retryTimerExpiry bay => Sys2Proof.Machine.execRetryTimerExpiry bay s
  | .pwrOkGood bay => Sys2Proof.Machine.execPwrOkGood bay s
  | .pwrOkLost bay => Sys2Proof.Machine.execPwrOkLost bay s
  | .startTimerExpiry bay => Sys2Proof.Machine.execStartTimerExpiry bay s
  | .restartTimerExpiry bay => Sys2Proof.Machine.execRestartTimerExpiry bay s
  | .alertRawChange bay level => Sys2Proof.Machine.execAlertRawChange bay level s
  | .alertDebounceExpiry bay => Sys2Proof.Machine.execAlertDebounceExpiry bay s
  | .faultDecayExpiry bay => Sys2Proof.Machine.execFaultDecayExpiry bay s
  | .reduceDeadline slot => Sys2Proof.Machine.execReduceDeadline slot s
  | .passComplete => Sys2Proof.Machine.execPassComplete s
  | .fanPresenceChange position present => Sys2Proof.Machine.execFanPresenceChange position present s
  | .fanPresenceDebounceExpiry position => Sys2Proof.Machine.execFanPresenceDebounceExpiry position s
  | .tachGateEnd edges => Sys2Proof.Machine.execTachGateEnd edges s
  | .spinUpEnd position => Sys2Proof.Machine.execSpinUpEnd position s
  | .probeTimerExpiry position => Sys2Proof.Machine.execProbeTimerExpiry position s
  | .freshnessTimerExpiry slot => Sys2Proof.Machine.execFreshnessTimerExpiry slot s
  | .controlPeriod => Sys2Proof.Machine.execControlPeriod s
  | .modPgGood bay => Sys2Proof.Machine.execModPgGood bay s
  | .modPgLost bay => Sys2Proof.Machine.execModPgLost bay s
  | .powerTimerExpiry bay => Sys2Proof.Machine.execPowerTimerExpiry bay s
  | .linkUpChange bay level => Sys2Proof.Machine.execLinkUpChange bay level s
  | .linkUpDebounceExpiry bay => Sys2Proof.Machine.execLinkUpDebounceExpiry bay s
  | .linkDownDebounceExpiry bay => Sys2Proof.Machine.execLinkDownDebounceExpiry bay s
  | .flapDecayExpiry bay => Sys2Proof.Machine.execFlapDecayExpiry bay s
  | .settleTimerExpiry slot => Sys2Proof.Machine.execSettleTimerExpiry slot s
  | .clockSecond => Sys2Proof.Machine.execClockSecond s
  | .eventRecordPerformed => Sys2Proof.Machine.execEventRecordPerformed s
  | .ringTailPerformed => Sys2Proof.Machine.execRingTailPerformed s
  | .strobeRelease => Sys2Proof.Machine.execStrobeRelease s
  | .ledBlinkEdge => Sys2Proof.Machine.execLedBlinkEdge s

end Sys2Proof.Machine
end

