-- ==== Sys2Proof/Machine/Effect.lean ====
section
/-! DEFINITION. The own effect of each row: what the command does of itself in its event, before the hand-overs it makes, its
publications and the lines follow. The statements speak of an event through it (Safety.lean). -/

namespace Sys2Proof.Machine

/-- The own effect of a row, on the state its event begins in: for a line's row, the one in which the line stands as the row sets it. The
rows of a block whose operations wait act where nothing of it waits (R38). POWER_ON_RESET and RESET_ASSERT are no event of the blocks. -/
def effect (c : Instr) : State → State :=
  match c with
  | .powerOnReset | .resetAssert => id
  | .drcStartupDone => drcStartupDone
  | .formatDone => lastWrite
  | .resetRelease pulses => resetRelease pulses
  | .headerReadAnswer => performIf Access.isHeader
  | .recoverWordAnswer => performIf Access.isRecover
  | .adoption => adoption
  | .dramAccessPerformed => performNext
  | .refreshDue => refreshDue
  | .writebackUpdateTaken => updateTaken
  | .readbackRequestTaken => requestTaken
  | .fetch slot offset clocks => fetchFrame slot offset clocks
  | .peek slot clocks => peekFrame slot clocks
  | .store slot offset data => storeFrame slot offset data
  | .merge slot offset mask data => mergeFrame slot offset mask data
  | .unknownCommand slot command => unknownFrame slot command
  | .frameEnd slot bytes => endFrame slot bytes
  | .plainWrite access =>
    match access with
    | .processor a => portCommand a
    | .link i off data => bladeCommand i off.toNat data
  | .modeRequest data => imageCommand 0x02 data
  | .abort data => imageCommand 0x03 data
  | .clockLoad data => imageCommand 0x12 data
  | .faultClear slot data => imageCommand (settingsOff slot 6) data
  | .linkClear slot data => imageCommand (settingsOff slot 7) data
  | .psuClear bay data => imageCommand (0xE5 + bay.val) data
  | .uplinkClear bay data => imageCommand (0xEB + bay.val) data
  | .imageMarkerWrite data => imageCommand 0 data
  | .groupFlagsClear data => imageCommand flagsOff data
  | .eventRingHead data => imageCommand 0x14 data
  | .eventGroupEnables data => imageCommand 0x13 data
  | .redundancyPolicy data => imageCommand 0x04 data
  | .margin data => imageCommand 0x05 data
  | .baseLoad data => imageCommand 0x06 data
  | .defaultStandbyAllowance data => imageCommand 0x07 data
  | .enable slot data => imageCommand (settingsOff slot 0) data
  | .powerClass slot data => imageCommand (settingsOff slot 1) data
  | .uplinkPreferenceList slot data => imageCommand (settingsOff slot 2) data
  | .activityCount slot data => imageCommand (settingsOff slot 3) data
  | .activityAction slot data => imageCommand (settingsOff slot 4) data
  | .locate slot data => imageCommand (settingsOff slot 5) data
  | .forcedThrottle slot data => imageCommand (settingsOff slot 5) data
  | .floorDuty zone data => imageCommand (zoneOff zone 0) data
  | .fanWattsAtFullDuty zone data => imageCommand (zoneOff zone 1) data
  | .zoneCurveSetting zone which data => imageCommand (zoneOff zone (curveIndex which)) data
  | .tCrit zone data => imageCommand (zoneOff zone 5) data
  | .moduleFloorDuty data => imageCommand 0xE4 data
  | .request slot data => bladeCommand slot 0 data
  | .drawnReport slot data => bladeCommand slot 1 data
  | .thermalReading slot which data => bladeCommand slot (thermalIndex which) data
  | .commit slot data => bladeCommand slot 15 data
  | .fruAreaWrite slot word data => bladeCommand slot (0x40 + word.val) data
  | .blinkCounterWrap => fun s => s.updSsq fun q => { q with blink := 0 }
  | .verifyWordAnswer slot => performIf (Access.isVerify slot)
  | .passComplete => passComplete
  | .fanPresenceChange position present => readFanPresence position present
  | .fanPresenceDebounceExpiry position => fanPresenceExpiry position
  | .tachGateEnd edges => tachGateEnd edges
  | .spinUpEnd position => spinUpEnd position
  | .probeTimerExpiry position => probeExpiry position
  | .freshnessTimerExpiry slot => freshnessExpiry slot
  | .controlPeriod => fun s => controlPeriod { s with clc := { s.clc with gate := 0 } }
  | .modPgGood bay => readModPgGood bay
  | .modPgLost bay => readModPgBad bay
  | .powerTimerExpiry bay => powerExpiry bay
  | .linkUpChange bay level => readLinkUp bay level
  | .linkUpDebounceExpiry bay => linkUpExpiry bay
  | .linkDownDebounceExpiry bay => linkDownExpiry bay
  | .flapDecayExpiry bay => flapDecayExpiry bay
  | .settleTimerExpiry slot => settleExpiry slot
  | .clockSecond => clockSecond
  | .ringTailPerformed => takeTailPerformed
  | .strobeRelease => releaseStrobe
  | .ledBlinkEdge => fun s => s.updSsq fun q => { q with blink := nextEdge q.blink }
  | .slotRawReadingChange _ _ _ | .presenceDebounceExpiry _ | .sbyPgGood _ | .sbyPgLost _ | .mainPgGood _ | .mainPgLost _
  | .standbyTimeout _ | .standbyStepDelayExpiry _ | .identityTimeout _ | .mainTimeout _ | .mainStepDelayExpiry _
  | .mainDownDelayExpiry _ | .standbyDownDelayExpiry _ | .activityTimerExpiry _ | .modulePresenceChange _ _
  | .modulePresenceDebounceExpiry _ | .readerAttemptStart | .readerWord0Read _ | .readerRecordRead _ | .readerNack
  | .readerSclTimeout | .retryTimerExpiry _ | .pwrOkGood _ | .pwrOkLost _ | .startTimerExpiry _ | .restartTimerExpiry _
  | .alertRawChange _ _ | .alertDebounceExpiry _ | .faultDecayExpiry _ | .reduceDeadline _ | .eventRecordPerformed =>
    onBlock c (eventOf c)

end Sys2Proof.Machine
end

