-- ==== Sys2Proof/Safety.lean ====
section
/-! DEFINITION. The terms in which statements about the part are made: the end of an event, the parts of the state an event's
hand-overs leave alone, what a free port and a free link are, and the laws every step keeps. -/

namespace Sys2Proof.Machine

/-! ## Events -/

/-- The state an event ends in: the event began in `s`, `u` is its own effect, and the hand-overs it made, its publications
and the lines driven follow. -/
def ends (s u : State) : State := conclude s u

/-- Nothing of an earlier event is left over. -/
def Rested (s : State) : Prop :=
  s.agenda = [] ∧ s.pal.due = false ∧ s.pal.reduced = false ∧ s.wra.offered = [] ∧ s.wra.forced = [] ∧ s.pal.posting = [] ∧
    s.later = none

/-- The write-back queue has room for the event that began in `s` and whose own effect is `u`: every update that binds its operation is
taken as the event ends (R38), or the event opens or closes the ports. -/
abbrev Fits (s u : State) : Prop := fits s u = true

/-- The command completes from `s`: it is one event, which begins in `s₀` and whose own effect is `u`. Where the write-back queue has room for
the event it ends in `ends s₀ u`; where not, it is carried out part by part (`react_fits`; both are in ArbiterServesInOrder, R38). -/
def EndsIn (c : Instr) (s s₀ u : State) : Prop := exec c s = .next (react (effect c) s₀) ∧ effect c s₀ = u

/-- An operation acts as it is made: nothing of its scope waits, and the event is not carried out part by part (R38). -/
abbrev State.acts (s : State) (k : Scope) : Prop := s.later = none ∧ s.holds k = false

/-- The scope `k` acts: the ports are open, and nothing of it waits for room in the write-back queue (R38, R68, R98, R101). -/
abbrev Acting (k : Scope) (s : State) : Prop := s.phase = .operating ∧ s.acts k

/-! ## What hand-overs and the end of an event leave alone -/

/-- What they leave alone of a slot in the SSQ: lines as read, fault reason, arrival and insertion, and the settings copies. -/
def SlotSeq.shell (q : SlotSeq) : SlotSeq :=
  { q with
    state := .empty, downCause := none, debounce := none, seq := none, activity := .stopped, activityTimer := none,
    abortHold := false, shedHold := false, attLed := .off, pwrLed := .off, verdict := .none }

/-- Of a supply: the lines as read. -/
def Psu.shell (p : Psu) : Psu := { Psu.reset with pwrOk := p.pwrOk, alertRaw := p.alertRaw }

/-- Of an allocation entry: the settings copies. -/
def Alloc.shell (a : Alloc) : Alloc := { Alloc.cleared 0 with cls := a.cls, forced := a.forced, reclaim := a.reclaim }

/-- Of a fan: all but its drive. -/
def Fan.shell (f : Fan) : Fan := { f with drive := 0, driven := false }

/-- Of a zone: the settings copies. -/
def ZoneState.shell (z : ZoneState) : ZoneState :=
  { z with target := 0, applied := 0, factor := 0, critical := false, modulePowered := false }

/-- Of an uplink bay: the lines as read. -/
def Uplink.shell (u : Uplink) : Uplink := { Uplink.reset with linkUp := u.linkUp, modPg := u.modPg }

/-- Of a slot in the ULC: the preference list. -/
def Placement.shell (p : Placement) : Placement := { Placement.reset with prefs := p.prefs }

def Ssq.shell (q : Ssq) : Ssq := { q with slots := q.slots.map SlotSeq.shell }

def Inv.shell (v : Inv) : Inv :=
  { v with entries := Inv.reset.entries, verifications := Inv.reset.verifications, changeCount := 0#32 }

def Psm.shell (p : Psm) : Psm := { Psm.reset with bays := p.bays.map Psu.shell, policy := p.policy, margin := p.margin }

def Pal.shell (p : Pal) : Pal :=
  { Pal.reset with
    slots := p.slots.map Alloc.shell, baseLoad := p.baseLoad, defaultAllowance := p.defaultAllowance,
    reduceTimeout := p.reduceTimeout }

def Clc.shell (c : Clc) : Clc :=
  { c with
    fans := c.fans.map Fan.shell, slots := Clc.reset.slots, zones := c.zones.map ZoneState.shell, reservation := 0 }

def Ulc.shell (u : Ulc) : Ulc :=
  { u with bays := u.bays.map Uplink.shell, slots := u.slots.map Placement.shell, wait := [], mode := .configure }

/-- Of the MEU: the mode requested, the clock, head and tail of the ring, flags and enables. -/
def Meu.shell (m : Meu) : Meu :=
  { m with
    actual := .configure, changePending := false, mainUpCount := 0, beyondCount := 0, poweringCount := 0, poweredCount := 0,
    quiescent := false, writePos := 0, overflow := 0, summaryCode := 0, records := [] }

/-- The part of the state that the hand-overs and the end of an event leave alone; every other field is put at a fixed value.
It keeps the waiting commands, the phase, the format latch, the DRAM, the DRC, the port, the links and the lines in whole. -/
def State.shell (s : State) : State :=
  { s with
    wra := Wra.reset, outs := Outs.off, agenda := [], held := [], later := none, ssq := s.ssq.shell, inv := s.inv.shell, psm := s.psm.shell
    pal := s.pal.shell, clc := s.clc.shell, ulc := s.ulc.shell, meu := s.meu.shell }

/-! ## What an event's own effect leaves alone

`u` is the state after the event's own effect, before the hand-overs it made (`ends s u`). -/

/-- The effect is the Slot Sequencer's, on slot `i`: only the SSQ, the slot's inventory entry and verification, the event ring and
what is offered to the WRA have changed, every other slot stands as it was, and the settings copies do. -/
def SlotEvent (i : Slot) (s u : State) : Prop :=
  u = { s with ssq := u.ssq, inv := u.inv, meu := u.meu, wra := u.wra, agenda := u.agenda, held := u.held } ∧
    u.ssq = { s.ssq with slots := u.ssq.slots } ∧ (∀ j : Slot, j ≠ i → u.ssq.slots[j] = s.ssq.slots[j]) ∧
    (∀ e : EntryNo, e ≠ slotEntry i → u.inv.entries[e] = s.inv.entries[e]) ∧ u.inv.bays = s.inv.bays ∧
    u.inv.queue = s.inv.queue ∧ u.inv.reading = s.inv.reading ∧ u.meu.shell = s.meu.shell ∧
    u.wra = { s.wra with offered := u.wra.offered, forced := u.wra.forced }

/-- The effect is the Inventory Unit's: only the INV, the event ring what is offered to the WRA and the count of
free values drawn have changed, and of the INV no blade entry. -/
def ReaderEvent (s u : State) : Prop :=
  u = { s with
    inv := u.inv, meu := u.meu, wra := u.wra, agenda := u.agenda, held := u.held, freeDraws := u.freeDraws } ∧
    u.meu.shell = s.meu.shell ∧ (∀ i : Slot, u.bladeEntry i = s.bladeEntry i) ∧ u.inv.verifications = s.inv.verifications ∧
    u.wra = { s.wra with offered := u.wra.offered, forced := u.wra.forced }

/-- The effect is the Supply Monitor's, on bay `b`: only the PSM, the event ring and what is offered to the WRA have changed, and
of the PSM every other bay and the settings copies stand. -/
def PsuEvent (b : PsuBay) (s u : State) : Prop :=
  u = { s with psm := u.psm, meu := u.meu, wra := u.wra, agenda := u.agenda, held := u.held } ∧ u.meu.shell = s.meu.shell ∧
    (∀ c : PsuBay, c ≠ b → u.psm.bays[c] = s.psm.bays[c]) ∧ u.psm.policy = s.psm.policy ∧ u.psm.margin = s.psm.margin ∧
    u.wra = { s.wra with offered := u.wra.offered, forced := u.wra.forced }

/-- The effect is the Uplink Controller's, on bay `b`: only the ULC, the event ring and what is offered to the WRA have changed, and
of every other bay at most the member list. -/
def UplinkEvent (b : UplinkBay) (s u : State) : Prop :=
  u = { s with ulc := u.ulc, meu := u.meu, wra := u.wra, agenda := u.agenda, held := u.held } ∧ u.meu.shell = s.meu.shell ∧
    (∀ c : UplinkBay, c ≠ b → u.ulc.bays[c] = { s.ulc.bays[c] with members := u.ulc.bays[c].members }) ∧
    u.ulc.mode = s.ulc.mode ∧ u.wra = { s.wra with offered := u.wra.offered, forced := u.wra.forced }

/-! ## Events of the ring -/

/-- Between `s` and `t` the event `c` has been raised once, and nothing else has been done in the MEU or offered to the write-backs
(R170, section 1.13): with a free record its four words, the cause and the subject, the days, the seconds of day and the detail, are
offered at the write position; with a full ring the overflow is counted, and the flags of the group and of SYSTEM are offered, where
the MEU's overflow count does not wait for room (R38). -/
def Raised (c : Cause) (x : Subject) (detail : Word) (s t : State) : Prop :=
  if (s.meu.writePos + 1) % 64 = s.meu.head then
    s.acts (.word 0x1D3) → t.meu = { s.meu with overflow := min 65535 (s.meu.overflow + 1) } ∧
      t.wra.offered = s.wra.offered ++ [{ off := 0x1D0, kind := .flags (putField c.group.val 1 ||| putField 7 1) }]
  else
    t.meu = { s.meu with writePos := (s.meu.writePos + 1) % 64, records := s.meu.records ++ [c.group] } ∧
      t.wra.offered = s.wra.offered ++
        [{ off := 0xE00 + s.meu.writePos * 4, kind := .whole (putField 0 c.code ||| x.bits) },
          { off := 0xE00 + s.meu.writePos * 4 + 1, kind := .whole (putField 0 s.meu.clock.days) },
          { off := 0xE00 + s.meu.writePos * 4 + 2
            kind := .whole (putField 0 (s.meu.clock.hours * 3600 + s.meu.clock.minutes * 60 + s.meu.clock.seconds)) },
          { off := 0xE00 + s.meu.writePos * 4 + 3, kind := .whole detail }]

/-- Events raised one after another, each with its subject and its detail. -/
def raiseAll (events : List (Cause × Subject × Word)) (s : State) : State := events.foldl (fun s e => raise e.1 e.2.1 e.2.2 s) s

/-- Between `s` and `t` the events of a list have been raised, in its order, and nothing else has been done in the MEU or offered to the
write-backs. (What raising one event does is `Raised`.) -/
def RaisedAll (events : List (Cause × Subject × Word)) (s t : State) : Prop :=
  t.meu = (raiseAll events s).meu ∧ t.wra.offered = (raiseAll events s).wra.offered

/-- Between `s` and `t` the events of a list have been raised, and behind them at most events of the causes given. -/
def RaisedThen (events : List (Cause × Subject × Word)) (causes : List Cause) (s t : State) : Prop :=
  ∃ more : List (Cause × Subject × Word), (∀ e ∈ more, e.1 ∈ causes) ∧ RaisedAll (events ++ more) s t

/-- Between `s` and `t` no event has been raised and nothing offered to the write-backs. -/
def NotRaised (s t : State) : Prop := t.meu = s.meu ∧ t.wra.offered = s.wra.offered

/-! ## Membership of an uplink -/

/-- Between `s` and `t` slot `i` has joined the list of uplink `b`, and no more has changed of bays and slots (R153, R154): it stands at the
tail, SETTLING with a fresh settle time, and counts its weight, 4 without an active profile. -/
def JoinedList (b : UplinkBay) (i : Slot) (s t : State) : Prop :=
  t.ulc.bays[b] = { s.ulc.bays[b] with members := s.ulc.bays[b].members ++ [i] } ∧
    (∀ c : UplinkBay, c ≠ b → t.ulc.bays[c] = s.ulc.bays[c]) ∧
    t.ulc.slots[i] = { s.ulc.slots[i] with
      attach := .settling, uplink := some b, counted := s.ulc.slots[i].weight.getD 4
      settle := some { detach := false, left := s.ulc.settleTime } } ∧
    ∀ j : Slot, j ≠ i → t.ulc.slots[j] = s.ulc.slots[j]

/-- Slot `i` has joined the tail of the wait list, and SLOT_PARKED has been raised with its reason and no uplink it was leaving (R156). -/
def Parked (i : Slot) (reason : Nat) (s t : State) : Prop :=
  t.ulc.wait = s.ulc.wait ++ [i] ∧ t.ulc.bays = s.ulc.bays ∧ t.ulc.slots = s.ulc.slots ∧
    Raised .slotParked (.slot i) (putField 0 reason) s t

/-! ## The processor's port -/

/-- The arbiter would serve the processor's port next: the ports are open, no strobe stands and no access is held, the DRC runs
with a debt below 8, and the WRA has nothing waiting (R23, R34). -/
def FreePort (s : State) : Prop :=
  s.phase = .operating ∧ s.pmp.strobe = none ∧ s.pmp.holding = none ∧ s.drc.started = true ∧ s.drc.debt < Config.maxDebt ∧
    s.wra.queue = [] ∧ s.wra.reads = []

/-- The port once a write of an image word has been performed: READY stands with the strobe (R23). -/
def Pmp.served (off : Nat) (data : Word) : Pmp :=
  { strobe := some (.write (imageAddress off) data), holding := none, current := true, ready := true, dataOut := none }

/-- The state in which a processor write of `data` to an image word has been performed, `w` being the word stored, and nothing
more has happened. -/
def State.served (s : State) (off : Nat) (data w : Word) : State :=
  { s.storeImage off w with pmp := Pmp.served off data }

/-- The word a processor write of `data` leaves at an image offset (R6, R8, R12, R13, R15, R17, R171). -/
def State.stores (s : State) (off : Nat) (data : Word) : Word :=
  portStore (kindAt off) (getField (s.image off) 0 16) s.meu.tail (s.image off) data

/-- The word at image offset `off` reads `w`, and every other DRAM word reads as before. -/
def WroteWord (s t : State) (off : Nat) (w : Word) : Prop :=
  memRead t.mem (Config.imageBase + off) = w ∧ ∀ a, a ≠ Config.imageBase + off → memRead t.mem a = memRead s.mem a

/-- The processor write `c` has been performed with the word stored `w`: that word and no other has changed, and the port is ready. Of
everything that the hand-overs and the end of an event leave alone, `f` alone, the effect of the write's notice, has changed something
more, where the write-back queue has room for the event (R38). -/
def TookWrite (c : Instr) (s t : State) (off : Nat) (data w : Word) (f : State → State) : Prop :=
  WroteWord s t off w ∧ t.pmp = Pmp.served off data ∧
    (Fits s (effect c s) → t.shell = (f (s.served off data w)).shell)

/-! ## The slot links -/

/-- The arbiter would serve the link of slot `i` next, and its select is not asserted: the ports are open, the link is NORMAL
with an empty buffer and no read, no other link and not the port has an access, and refresh and WRA have nothing (R25, R34). -/
def FreeLink (s : State) (i : Slot) : Prop :=
  s.phase = .operating ∧ s.links[i].frame = none ∧ s.links[i].state = .normal ∧ (∀ j : Slot, s.links[j].waiting = false) ∧
    s.pmp.holding = none ∧ s.drc.started = true ∧ s.drc.debt < Config.maxDebt ∧ s.wra.queue = [] ∧ s.wra.reads = []

/-- The STORE frame of slot `i` stands open and taken, at the window offset `next`, at a word boundary (R27). -/
def StoreOpenAt (t : State) (i : Slot) (next : Nat) : Prop :=
  ∃ f, t.links[i].frame = some f ∧ f.disregarded = false ∧ f.command = .store ∧ f.header = 2 ∧ f.part = [] ∧ f.offset = next

/-- The link state follows the error count, and no link has more than four words buffered (R29, R31). -/
def LinkLaw (s : State) : Prop :=
  ∀ i : Slot, s.links[i].lec ≤ 255 ∧ s.links[i].state = linkStateOf s.links[i].lec ∧
    s.links[i].buffer.length ≤ Config.bufferSize

/-- An image word of which slot `i` owns a field (R2, R4). -/
def ownedBy (i : Slot) (off : Nat) : Bool :=
  match kindAt off with
  | .blade j _ => j == i
  | .commit j => j == i
  | _ => false

/-- Every word a link has buffered is one its own slot owns a field of (R4). -/
def BufferLaw (s : State) : Prop := ∀ i : Slot, ∀ e ∈ s.links[i].buffer, ownedBy i e.off = true

/-! ## Laws of the memory path -/

/-- Refresh: the debt is at most 8 and the row counter names a row (R35). -/
def RefreshLaw (s : State) : Prop := s.drc.debt ≤ Config.maxDebt ∧ s.drc.row < Config.dramRows

/-- The write-back queue: at most 64 entries, at most one for a word, and an update waits for a word that has one only behind an
earlier update; at most 64 read-back requests; nothing is on offer and no event is half carried out between events (R38, R39, R143,
R163). -/
def QueueLaw (s : State) : Prop :=
  s.wra.queue.length ≤ Config.queueSize ∧ (s.wra.queue.map fun u => u.off).Nodup ∧
    s.waitsWell ∧ s.wra.reads.length ≤ Config.queueSize ∧ s.wra.offered = [] ∧ s.wra.forced = [] ∧ s.later = none

/-- The fields of a published word, as one mask. -/
def Pub.mask (p : Pub) : Word := p.fields.foldl (· ||| ·) 0#32

/-- An update of a published word's own fields: the whole word, or some of its fields (R9, R38). -/
def Pub.isUpdate (p : Pub) : UpdateKind → Prop
  | .whole _ => True
  | .fields m _ => m &&& ~~~p.mask = 0#32
  | _ => False

/-- The value a word will have once every update on its way to it has been performed: the queued one first, then those that wait. -/
def State.comingWord (s : State) (off : Nat) : Word :=
  ((s.wra.queue ++ s.waitingUpdates).filter fun u => u.off == off).foldl (fun w u => u.kind.perform w) (s.image off)

/-- The updates that wait for room and bind the operation they belong to (R38). -/
def State.bound (s : State) : Nat := s.waitingUpdates.countP Update.binds

/-- The law of publication (R38): what is on its way to a published word is an update of its fields, and while the ports are open the
word comes to the value its owning block holds. With no update on its way, the word in the DRAM is that value. -/
def PublicationLaw (s : State) : Prop :=
  ∀ p ∈ pubs s, (∀ u ∈ s.wra.queue ++ s.waitingUpdates, u.off = p.off → p.isUpdate u.kind) ∧
    (s.phase = .operating → s.comingWord p.off = p.value)

/-! ## What a tick's expiries do -/

/-- The state after a command, as it was where the command does not complete. -/
def after (c : Instr) (s : State) : State :=
  match exec c s with
  | .next t => t
  | _ => s

/-- A row that is due where its timer has run out. -/
def ifOut (c : Instr) (t : Timer) : Option Instr := if t = some 0 then some c else none

/-- The rows that may be due in a tick, each with the timer that makes it so, in the order in which a tick looks at them (the
model's, notes/assumptions/6.md). -/
def dueRows : List (State → Option Instr) :=
  (allSlots.flatMap fun i =>
    [fun s => ifOut (.presenceDebounceExpiry i) s.ssq.slots[i].debounce,
      fun s => s.ssq.slots[i].seq.bind fun t => ifOut (seqRow i t.wait) (some t.left),
      fun s => ifOut (.activityTimerExpiry i) s.ssq.slots[i].activityTimer,
      fun s => ifOut (.reduceDeadline i) s.pal.slots[i].deadline,
      fun s => ifOut (.freshnessTimerExpiry i) s.clc.slots[i].fresh,
      fun s => s.ulc.slots[i].settle.bind fun t => ifOut (.settleTimerExpiry i) (some t.left)]) ++
  (allModuleBays.flatMap fun b =>
    [fun s => ifOut (.modulePresenceDebounceExpiry b) s.inv.bays[b].debounce,
      fun s => ifOut (.retryTimerExpiry b) s.inv.bays[b].retry]) ++
  (allPsuBays.flatMap fun b =>
    [fun s => ifOut (.startTimerExpiry b) s.psm.bays[b].start, fun s => ifOut (.restartTimerExpiry b) s.psm.bays[b].restart,
      fun s => ifOut (.alertDebounceExpiry b) s.psm.bays[b].alertTimer, fun s => ifOut (.faultDecayExpiry b) s.psm.bays[b].decay]) ++
  (allFans.flatMap fun p =>
    [fun s => ifOut (.fanPresenceDebounceExpiry p) s.clc.fans[p].presence, fun s => ifOut (.spinUpEnd p) s.clc.fans[p].spin,
      fun s => ifOut (.probeTimerExpiry p) s.clc.fans[p].probeTimer]) ++
  (allUplinks.flatMap fun b =>
    [fun s => ifOut (.powerTimerExpiry b) s.ulc.bays[b].power,
      fun s => ifOut (if s.ulc.bays[b].state = .linkDown then .linkUpDebounceExpiry b else .linkDownDebounceExpiry b) s.ulc.bays[b].link,
      fun s => ifOut (.flapDecayExpiry b) s.ulc.bays[b].decay])

/-- One row of a tick: where it is due it acts as the command does, unless its block is held up (R38). -/
def fire (row : State → Option Instr) (s : State) : State :=
  match row s with
  | some c => if s.holdsBack (.event c) then s else after c s
  | none => s

/-! ## Laws of the blocks -/

/-- A pattern's LED is on (R65): slow shows on for the first half of the blink cycle, fast for 125 of every 500 ticks. -/
def ShowsOn (p : LedPattern) (blink : Nat) : Prop :=
  p = .on ∨ (p = .slow ∧ blink < 1000) ∨ (p = .fast ∧ blink % 500 < 125)

/-- The lines of one slot, by the states of chapters 3, 6 and 8: MAIN_EN and SBY_EN (R44), THROT (R127), the LEDs (R65, R66) and XSEL
(R154). -/
def SlotLines (s : State) (i : Slot) : Prop :=
  let q := s.ssq.slots[i]
  let p := s.ulc.slots[i]
  (s.outs.mainEn[i] = true ↔ q.state ∈ [.mainUp, .run, .detach]) ∧
  (s.outs.sbyEn[i] = true ↔
    q.state ∈ [.standbyUp, .identifying, .ready, .admitWait, .mainUp, .run, .detach, .mainDown]) ∧
  (s.outs.throt[i] = true ↔ s.pal.slots[i].causes ≠ { deficit := false, lateReduce := false, overdraw := false, coolingLost := false, forced := false }) ∧
  q.pwrLed = (if q.state ∈ [.empty, .detecting, .held, .fault] then .off
    else if q.state = .run then .on
    else if q.state ∈ [.identifying, .ready, .admitWait] then .slow else .fast) ∧
  q.attLed = (if q.state = .fault then .on
    else if q.locate = true then .fast
    else if q.activity = .silent ∨ q.linkState ≠ .normal ∨ q.verdict = .rejected then .slow else .off) ∧
  (s.outs.ledPwr[i] = true ↔ ShowsOn q.pwrLed s.ssq.blink) ∧ (s.outs.ledAtt[i] = true ↔ ShowsOn q.attLed s.ssq.blink) ∧
  ∀ b : UplinkBay, s.outs.xsel[i] = some b ↔ p.attach = .attached ∧ p.uplink = some b

/-- While the ports are open: the lines of every slot, PSU_ON (R89), FAN_PWM (R140), MOD_ON (R148, section 8.1), the one bay select
(R81) and ATTN_N (R172) stand as the states of the blocks call for, and so does the summary code, the number of the group that ATTN_N is
asserted for (R172). -/
def LinesLaw (s : State) : Prop :=
  s.phase = .operating →
    (∀ i : Slot, SlotLines s i) ∧
    (∀ b : PsuBay, s.outs.psuOn[b] = true ↔ s.psm.bays[b].state ∈ [.starting, .online]) ∧
    (∀ p : FanPos, s.outs.fanPwm[p] = s.clc.fans[p].drive) ∧
    (∀ b : UplinkBay, s.outs.modOn[b] = true ↔ s.ulc.bays[b].state ∈ [.powering, .linkDown, .up, .held]) ∧
    s.outs.baySelect = s.inv.reading.map (fun r => r.bay) ∧
    (s.outs.attn = true ↔ ∃ g : Fin 8, s.meu.flags.getLsbD g.val = true ∧ s.meu.enables.getLsbD g.val = true) ∧
    s.meu.summaryCode = summaryCodeOf s.meu.flags s.meu.enables

/-- The law of the budget, as DEFICIT keeps it (R124): DEFICIT is set exactly while the in-force amounts and L exceed P_avail. With it what
the table holds of a slot that is not ADMITTED (R104, R105): none has a reduction unsettled, one of STANDBY standing has its allowance in
force, and one of standing NONE nothing. -/
def BudgetLaw (s : State) : Prop :=
  (s.pal.deficit = true ↔ s.pal.available < s.pal.inForceSum + s.pal.load) ∧
    ∀ i : Slot, let a := s.pal.slots[i]
      (a.standing ≠ .admitted → a.unsettled = false) ∧ (a.standing = .standby → a.inForce = a.allowance) ∧
        (a.standing = .none → a.inForce = 0)

/-- The applied duty: 0–100 % and never below the zone's target; with it the duties it is formed from, and the drives and
lines formed from it (R138). -/
def DutyLaw (s : State) : Prop :=
  (∀ z : Zone, s.clc.zones[z].target ≤ s.clc.zones[z].applied ∧ s.clc.zones[z].applied ≤ 100 ∧
    s.clc.zones[z].floorDuty ≤ 100 ∧ s.clc.zones[z].dMin ≤ 100 ∧ s.clc.zones[z].dMax ≤ 100) ∧
  s.clc.moduleFloor ≤ 100 ∧ (∀ p : FanPos, s.clc.fans[p].drive ≤ 100 ∧ s.outs.fanPwm[p] ≤ 100)

/-- The event ring: the records between the tail and the write position, at most 63 (R170). -/
def RingLaw (s : State) : Prop :=
  s.meu.tail < 64 ∧ s.meu.records.length ≤ 63 ∧ s.meu.writePos = (s.meu.tail + s.meu.records.length) % 64 ∧
    s.meu.head < 64 ∧ (s.meu.tail + 64 - s.meu.head) % 64 + s.meu.records.length ≤ 63

/-- The MEU's head is the head stored in the image, and no write-back is on its way to that word (R171). -/
def HeadLaw (s : State) : Prop :=
  getField (s.image 0x14) 0 16 % 64 = s.meu.head ∧ ∀ u ∈ s.wra.queue ++ s.waitingUpdates ++ s.wra.offered, u.off ≠ 0x14

/-- Capacity and membership of the uplinks (R153, R154, R157): every member of a list stands on that list alone and no slot twice,
a bay that is not UP has no members, the counted weights and the members keep to the module's figures, and no member waits. -/
def MembershipLaw (s : State) : Prop :=
  (∀ b : UplinkBay, s.ulc.bays[b].members.Nodup ∧ (s.ulc.bays[b].members ≠ [] → s.ulc.bays[b].state = .up) ∧
    s.ulc.units b ≤ s.ulc.bays[b].figures.capacity ∧ s.ulc.bays[b].members.length ≤ s.ulc.bays[b].figures.maxMembers ∧
    ∀ i : Slot, i ∈ s.ulc.bays[b].members ↔ s.ulc.slots[i].uplink = some b) ∧
  s.ulc.wait.Nodup ∧ ∀ i ∈ s.ulc.wait, s.ulc.slots[i].uplink = none

/-- A setting that waits for a block that is held up lies in its storage range (R11). -/
def Held.inRange : Held → Bool
  | .psmSetting off w => off != 0x05 || getField w 0 16 ≤ 1000
  | .ssqActivityCount _ n => n ≤ 31
  | .palClass _ k => k ≤ 2
  | .palBaseLoad w => w ≤ 500
  | .palAllowance w => 5 ≤ w && w ≤ 100
  | .meuLoad c => c.days < 65536 && c.hours ≤ 23 && c.minutes ≤ 59 && c.seconds ≤ 59
  | _ => true

/-- The settings copies lie in their storage ranges, and so do those that wait to be taken (R11, sections 1.5 and 1.13). -/
def SettingsLaw (s : State) : Prop :=
  (∀ m ∈ s.held, m.inRange = true) ∧
  s.psm.margin ≤ 1000 ∧ s.pal.baseLoad ≤ 500 ∧ (5 ≤ s.pal.defaultAllowance ∧ s.pal.defaultAllowance ≤ 100) ∧
  (1 ≤ s.ssq.presenceDebounce ∧ s.ssq.presenceDebounce ≤ 255) ∧ (1 ≤ s.ssq.standbyTimeout ∧ s.ssq.standbyTimeout ≤ 255) ∧
  (1 ≤ s.ssq.mainTimeout ∧ s.ssq.mainTimeout ≤ 255) ∧ (1 ≤ s.ssq.identityTimeout ∧ s.ssq.identityTimeout ≤ 255) ∧
  (1 ≤ s.ssq.tUp ∧ s.ssq.tUp ≤ 15) ∧ (1 ≤ s.ssq.tDown ∧ s.ssq.tDown ≤ 15) ∧
  (1 ≤ s.pal.reduceTimeout ∧ s.pal.reduceTimeout ≤ 255) ∧ (1 ≤ s.ulc.settleTime ∧ s.ulc.settleTime ≤ 255) ∧
  (10 ≤ s.ulc.upDebounce ∧ s.ulc.upDebounce ≤ 255) ∧ (1 ≤ s.ulc.downDebounce ∧ s.ulc.downDebounce ≤ 25) ∧
  s.clc.moduleFloor ≤ 100 ∧ s.meu.head < 64 ∧
  (s.meu.load.days < 65536 ∧ s.meu.load.hours ≤ 23 ∧ s.meu.load.minutes ≤ 59 ∧ s.meu.load.seconds ≤ 59) ∧
  (∀ i : Slot, s.pal.slots[i].cls ≤ 2 ∧ s.ssq.slots[i].activityCount ≤ 31) ∧
  ∀ z : Zone, s.clc.zones[z].floorDuty ≤ 100 ∧ s.clc.zones[z].fanWatts ≤ 200 ∧ s.clc.zones[z].dMin ≤ 100 ∧
    s.clc.zones[z].dMax ≤ 100 ∧ (-40 ≤ s.clc.zones[z].tLow ∧ s.clc.zones[z].tLow ≤ 150) ∧
    (-40 ≤ s.clc.zones[z].tHigh ∧ s.clc.zones[z].tHigh ≤ 150) ∧ (-40 ≤ s.clc.zones[z].tCrit ∧ s.clc.zones[z].tCrit ≤ 150) ∧
    (1 ≤ s.clc.zones[z].slew ∧ s.clc.zones[z].slew ≤ 10) ∧ s.clc.zones[z].minRpm ≤ 7650

end Sys2Proof.Machine
end

