-- ==== Sys2Proof/WellFormed.lean ====
section
/-! DEFINITION. Which commands are well formed: the operand of a command is one that the rule of its row admits. -/

namespace Sys2Proof

/-- The defined command bytes of a slot link frame (section 1.13). -/
def definedCommands : List Byte := [0xA1#8, 0xA2#8, 0xA4#8, 0xA8#8]

/-- An UNKNOWN_COMMAND byte is none of the defined ones (R25). -/
def unknownOk (command : Byte) : Bool := !definedCommands.contains command

/-- A record has 8 to 63 words, word 0 among them (R69). -/
def recordOk (words : List Word) : Bool := 7 ≤ words.length && words.length ≤ 62

/-- The recovery of the Module Identity Line sends at most nine clock pulses (R87). -/
def pulsesOk (pulses : Nat) : Bool := pulses ≤ 9

/-- Is a command well formed? -/
def wellFormed : Instr → Bool
  | .unknownCommand _ command => unknownOk command
  | .readerRecordRead words => recordOk words
  | .resetRelease pulses => pulsesOk pulses
  | .powerOnReset | .drcStartupDone | .formatDone | .resetAssert | .headerReadAnswer | .recoverWordAnswer | .adoption
  | .dramAccessPerformed | .refreshDue | .writebackUpdateTaken | .readbackRequestTaken | .fetch _ _ _ | .peek _ _
  | .store _ _ _ | .merge _ _ _ _ | .frameEnd _ _ | .plainWrite _ | .modeRequest _ | .abort _ | .clockLoad _
  | .faultClear _ _ | .linkClear _ _ | .psuClear _ _ | .uplinkClear _ _ | .imageMarkerWrite _ | .groupFlagsClear _
  | .eventRingHead _ | .eventGroupEnables _ | .redundancyPolicy _ | .margin _ | .baseLoad _ | .defaultStandbyAllowance _
  | .enable _ _ | .powerClass _ _ | .uplinkPreferenceList _ _ | .activityCount _ _ | .activityAction _ _ | .locate _ _
  | .forcedThrottle _ _ | .floorDuty _ _ | .fanWattsAtFullDuty _ _ | .zoneCurveSetting _ _ _ | .tCrit _ _
  | .moduleFloorDuty _ | .request _ _ | .drawnReport _ _ | .thermalReading _ _ _ | .commit _ _ | .fruAreaWrite _ _ _
  | .slotRawReadingChange _ _ _ | .presenceDebounceExpiry _ | .sbyPgGood _ | .sbyPgLost _ | .mainPgGood _ | .mainPgLost _
  | .standbyTimeout _ | .standbyStepDelayExpiry _ | .identityTimeout _ | .mainTimeout _ | .mainStepDelayExpiry _
  | .mainDownDelayExpiry _ | .standbyDownDelayExpiry _ | .activityTimerExpiry _ | .blinkCounterWrap
  | .modulePresenceChange _ _ | .modulePresenceDebounceExpiry _ | .verifyWordAnswer _ | .readerAttemptStart
  | .readerWord0Read _ | .readerNack | .readerSclTimeout | .retryTimerExpiry _ | .pwrOkGood _ | .pwrOkLost _
  | .startTimerExpiry _ | .restartTimerExpiry _ | .alertRawChange _ _ | .alertDebounceExpiry _ | .faultDecayExpiry _
  | .reduceDeadline _ | .passComplete | .fanPresenceChange _ _ | .fanPresenceDebounceExpiry _ | .tachGateEnd _
  | .spinUpEnd _ | .probeTimerExpiry _ | .freshnessTimerExpiry _ | .controlPeriod | .modPgGood _ | .modPgLost _
  | .powerTimerExpiry _ | .linkUpChange _ _ | .linkUpDebounceExpiry _ | .linkDownDebounceExpiry _ | .flapDecayExpiry _
  | .settleTimerExpiry _ | .clockSecond | .eventRecordPerformed | .ringTailPerformed | .strobeRelease | .ledBlinkEdge => true

end Sys2Proof
end

