-- ==== Sys2Proof/Certificates/Slice0/Obligations.lean ====
section
/-! DEFINITION. The statements about the part. Each says in its docstring which rule of spec/ it formalises, and what of it is the
model's own choice. `EndsIn c s s₀ u` says that the command `c` completes from `s` as one event, which begins in `s₀` and whose own effect
is `u`; where the write-back queue has room for it (`Fits`), the event ends in `ends s₀ u`: the hand-overs the effect made and the event's
publications and lines follow it, and leave the shell of `u` alone (Laws/Shell.lean). Where it has none, the operations it is made of are
carried out one by one, as far as there is room (R38, `ArbiterServesInOrder`). `s.acts k` says that nothing of the scope `k` waits. -/

open Sys2Proof Sys2Proof.Machine

/-! ## The step -/

/-- A step takes the command at the front of the queue and runs it on the state with the rest of the queue; on an empty queue it is
one chassis tick, which the time-driven rules make of themselves (the model's choice, notes/assumptions/6.md). No table row spells a
word, so withFetchWord leaves every state as it is (the model's choice, notes/assumptions/1.md). -/
def Obligations.StepRunsTheFrontCommand : Prop :=
  (∀ (c : Instr) (rest : List Instr) (s : State), step { s with pending := c :: rest } = exec c { s with pending := rest }) ∧
  (∀ s : State, s.pending = [] → step s = .next (tick s)) ∧
  ∀ (s : State) (nbits w : Nat), s.withFetchWord nbits w = s

/-! ## Laws every step keeps -/

/-- R31, R29, R35, R38, R138, R11: the state right after power-on reset satisfies every law the steps keep. The values of it that the
spec does not give are the model's (notes/assumptions/8.md). -/
def Obligations.ResetSatisfiesTheLaws : Prop :=
  memWf State.reset.mem = true ∧ LinkLaw State.reset ∧ BufferLaw State.reset ∧ RefreshLaw State.reset ∧ QueueLaw State.reset ∧
    LinesLaw State.reset ∧ DutyLaw State.reset ∧ SettingsLaw State.reset ∧ RingLaw State.reset ∧ HeadLaw State.reset ∧
    MembershipLaw State.reset ∧ PublicationLaw State.reset

/-- The DRAM keeps its canonical form: addresses rising, no entry equal to what an unlisted word reads as. The form, and what an
unlisted word reads as, are the model's own (notes/assumptions/4.md); no rule of the spec gives them. -/
def Obligations.StepKeepsMemoryForm : Prop :=
  ∀ s t : State, memWf s.mem = true → step s = .next t → memWf t.mem = true

/-- R31: a link's LEC lies in 0–255 and its state follows it; R29: no link ever has more than four words buffered. R4: whatever a blade
sends, its link never buffers a word outside the record and FRU area of its own slot. -/
def Obligations.StepKeepsLinkAndBufferLaws : Prop :=
  (∀ s t : State, LinkLaw s → step s = .next t → LinkLaw t) ∧
  (∀ s t : State, BufferLaw s → step s = .next t → BufferLaw t)

/-- R35: the refresh debt never exceeds 8, and the row counter always names one of the 2,048 rows. R38, R39: the write-back queue never holds
more than 64 entries nor two for one word, an update waits for a word that has an entry only behind an earlier one (R38, R123, R143,
R163; what that holds of is notes/assumptions/13.md), and the read-back list never holds more than 64 requests. -/
def Obligations.StepKeepsRefreshAndQueueLaws : Prop :=
  (∀ s t : State, RefreshLaw s → step s = .next t → RefreshLaw t) ∧
  (∀ s t : State, QueueLaw s → step s = .next t → QueueLaw t)

/-- The law of publication, as the model keeps it. Every step keeps it: what is on its way to a word that a block publishes is an update
of that word's own fields, and while the ports are open the word comes to the value its block holds, however full the queue is. So
where no update for a word is queued or waits, the word in the DRAM is that value (R38); and where none is queued, every field of the word
that no waiting update carries is, so that a field stands otherwise only while its update waits to be taken.
R38: a block does not take a new value as its own until the queue has taken the update that publishes it. No step leaves more updates
waiting that bind a block than it found (`State.bound`): while the ports are open a block that would publish into a full queue keeps its old
value, and its operation waits instead.
Two clauses rest on the model's choices and not on R38: that a word comes to its block's value however full the queue is, and the one
of the waiting fields. They speak of the updates that do wait: those of the CLC and the ULC (R143, R163), of words that no block holds as its
own, and the first publications of adoption and image preparation (notes/assumptions/13.md). That an event posts one update for each word it
has changed, as it ends, is notes/assumptions/12.md. -/
def Obligations.StepKeepsPublicationLaw : Prop :=
  (∀ s t : State, memWf s.mem = true → BufferLaw s → QueueLaw s → PublicationLaw s → step s = .next t → PublicationLaw t) ∧
  (∀ (s : State) (p : Pub), PublicationLaw s → s.phase = .operating → p ∈ pubs s → holdsWord s.wra.queue p.off = false →
    (holdsWord s.waitingUpdates p.off = false → s.image p.off = p.value) ∧
    ∀ k : Nat, k < 32 → (∀ u ∈ s.waitingUpdates, u.off = p.off → u.kind.mask.getLsbD k = false) →
      (s.image p.off).getLsbD k = p.value.getLsbD k) ∧
  ∀ s t : State, s.phase = .operating → t.phase = .operating → LinesLaw s → QueueLaw s → step s = .next t → t.bound ≤ s.bound

/-- R44, R65, R66, R81, R89, R127, R140, R148, R154, R172: after every step that leaves the ports open, the rails, the throttles, the
LEDs, the crossbar selects, PSU_ON, FAN_PWM, MOD_ON, the bay select and ATTN_N are on exactly in the states the rules list, and the summary
code is the one that flags and enables call for (`SlotLines`, `LinesLaw`). -/
def Obligations.StepKeepsLinesLaw : Prop :=
  ∀ s t : State, LinesLaw s → step s = .next t → LinesLaw t

/-- R138, the law of the applied duty: each zone's applied duty lies in 0–100 and is never below the zone's target; and no fan is
driven above 100 %. -/
def Obligations.StepKeepsDutyLaw : Prop :=
  ∀ s t : State, DutyLaw s → step s = .next t → DutyLaw t

/-- R11, R12, R171: every settings copy a block keeps that has a storage range lies in it, whatever the processor writes and whatever
RECOVER reads: the counts and temperatures, the clock load copies, the power class, the activity count and the ring head; and so does
every setting that waits for a block that is held up: the margin, the activity count, the power class, the base load, the default standby
allowance and the clock load (notes/assumptions/13.md). -/
def Obligations.StepKeepsSettingsLaw : Prop :=
  ∀ s t : State, SettingsLaw s → step s = .next t → SettingsLaw t

/-- R175, R176: from the assertion of RESET_N until the ports open again, no command but a power-on reset moves a rail, a throttle,
an LED, a crossbar select, PSU_ON, FAN_PWM, MOD_ON or ATTN_N. -/
def Obligations.LinesHoldUntilThePortsOpen : Prop :=
  ∀ (c : Instr) (s t : State), exec c s = .next t → c ≠ .powerOnReset → t.phase ≠ .operating →
    t.outs.sbyEn = s.outs.sbyEn ∧ t.outs.mainEn = s.outs.mainEn ∧ t.outs.throt = s.outs.throt ∧
      t.outs.ledAtt = s.outs.ledAtt ∧ t.outs.ledPwr = s.outs.ledPwr ∧ t.outs.xsel = s.outs.xsel ∧ t.outs.psuOn = s.outs.psuOn ∧
      t.outs.fanPwm = s.outs.fanPwm ∧ t.outs.modOn = s.outs.modOn ∧ t.outs.attn = s.outs.attn

/-- Until image preparation or adoption has ended, no expiry, no report and no line acts on a block: a timer's event leaves the state as
it is, and a line's event changes the line alone (R87, R174, R175 begin the readings of the lines afterwards). That a row of the table sent
in that time does nothing more, the clock's among them, is the model's choice (notes/assumptions/6.md: R173 stops the clock only
while RESET_N is asserted), and that a line's row sets the line is notes/assumptions/3.md; TACH_GATE_END leaves FAN_TACH as the gate
has shown it (notes/assumptions/6.md). The events of the Module Identity Reader act in the identity reads too (R177). -/
def Obligations.EventsAreDisregardedWhileThePortsAreClosed : Prop :=
  ∀ s : State, s.phase ≠ .operating →
    (∀ c : Instr,
      (∃ i : Slot, c ∈ [.presenceDebounceExpiry i, .standbyTimeout i, .standbyStepDelayExpiry i, .identityTimeout i, .mainTimeout i,
        .mainStepDelayExpiry i, .mainDownDelayExpiry i, .standbyDownDelayExpiry i, .activityTimerExpiry i, .reduceDeadline i,
        .freshnessTimerExpiry i, .settleTimerExpiry i, .verifyWordAnswer i]) ∨
      (∃ b : ModuleBay, c = .modulePresenceDebounceExpiry b) ∨
      (∃ b : PsuBay, c ∈ [.startTimerExpiry b, .restartTimerExpiry b, .alertDebounceExpiry b, .faultDecayExpiry b]) ∨
      (∃ p : FanPos, c ∈ [.fanPresenceDebounceExpiry p, .spinUpEnd p, .probeTimerExpiry p]) ∨
      (∃ b : UplinkBay, c ∈ [.powerTimerExpiry b, .linkUpDebounceExpiry b, .linkDownDebounceExpiry b, .flapDecayExpiry b]) ∨
      c ∈ [.passComplete, .controlPeriod, .clockSecond, .eventRecordPerformed, .ringTailPerformed] →
      exec c s = .next s) ∧
    (∀ (i : Slot) (pres latch : Bool), exec (.slotRawReadingChange i pres latch) s =
      .next (s.updPins fun p => { p with pres := p.pres.set i pres, latch := p.latch.set i latch })) ∧
    (∀ i : Slot,
      exec (.sbyPgGood i) s = .next (s.updPins fun p => { p with sbyPg := p.sbyPg.set i true }) ∧
      exec (.sbyPgLost i) s = .next (s.updPins fun p => { p with sbyPg := p.sbyPg.set i false }) ∧
      exec (.mainPgGood i) s = .next (s.updPins fun p => { p with mainPg := p.mainPg.set i true }) ∧
      exec (.mainPgLost i) s = .next (s.updPins fun p => { p with mainPg := p.mainPg.set i false })) ∧
    (∀ edges : Vector Nat 8, exec (.tachGateEnd edges) s =
      .next (s.updPins fun p => { p with fanTach := gateRates edges s.clc })) ∧
    (∀ (b : ModuleBay) (level : Bool), exec (.modulePresenceChange b level) s = .next (s.updPins (Pins.setBayPres b level))) ∧
    (∀ (b : PsuBay) (level : Bool),
      exec (.pwrOkGood b) s = .next (s.updPins fun p => { p with pwrOk := p.pwrOk.set b true }) ∧
      exec (.pwrOkLost b) s = .next (s.updPins fun p => { p with pwrOk := p.pwrOk.set b false }) ∧
      exec (.alertRawChange b level) s = .next (s.updPins fun p => { p with alert := p.alert.set b level })) ∧
    (∀ (p : FanPos) (present : Bool), exec (.fanPresenceChange p present) s =
      .next (s.updPins fun x => { x with fanPres := x.fanPres.set p present })) ∧
    (∀ (b : UplinkBay) (level : Bool),
      exec (.modPgGood b) s = .next (s.updPins fun p => { p with modPg := p.modPg.set b true }) ∧
      exec (.modPgLost b) s = .next (s.updPins fun p => { p with modPg := p.modPg.set b false }) ∧
      exec (.linkUpChange b level) s = .next (s.updPins fun p => { p with linkUp := p.linkUp.set b level })) ∧
    (s.phase ≠ .identityReads → ∀ (w : Word) (words : List Word) (b : ModuleBay) (c : Instr),
      c ∈ [.readerAttemptStart, .readerWord0Read w, .readerRecordRead words, .readerNack, .readerSclTimeout, .retryTimerExpiry b] →
      exec c s = .next s)

/-! ## Resets and image preparation (chapter 10, sections 1.10, 1.11, 2.7) -/

/-- R174: power-on reset puts every block at its state after POR. What the chassis drives (the lines in, a strobe, a select held low)
is not the part's to change (notes/assumptions/3.md), the DRAM content is not kept (notes/assumptions/4.md), and the reset values that
the spec does not give are the model's (notes/assumptions/8.md). -/
def Obligations.PowerOnResetPutsEveryBlockAtItsReset : Prop :=
  ∀ s : State, ∃ t : State, exec .powerOnReset s = .next t ∧
    t.phase = .startup ∧ t.formatLatch = false ∧ t.mem = [] ∧ t.drc = Drc.reset ∧ t.wra = Wra.reset ∧ t.ssq = Ssq.reset ∧
    t.inv = Inv.reset ∧ t.psm = Psm.reset ∧ t.pal = Pal.reset ∧ t.clc = Clc.reset ∧ t.ulc = Ulc.reset ∧ t.meu = Meu.reset ∧
    t.outs = Outs.off ∧ t.agenda = [] ∧ t.pins = s.pins ∧ t.pending = s.pending ∧ t.pmp.strobe = s.pmp.strobe ∧
    t.pmp.ready = false ∧
    ∀ i : Slot, t.links[i].lec = 0 ∧ t.links[i].state = .normal ∧ t.links[i].buffer = [] ∧ t.links[i].reads = [] ∧
      (t.links[i].frame.isSome = s.links[i].frame.isSome) ∧ ∀ f ∈ t.links[i].frame, f.disregarded = true

/-- R37: the end of the DRC's start-up after power-on leaves debt 0 and rows 0–7 refreshed, and FORMAT begins with its count 1 (R18,
R19): the write-back queue holds its first 64 writes (the model's reading, notes/assumptions/22.md), the marker's zero first.
R19: FORMAT's writes are 0 to the marker word, then every other assigned word once, in ascending order from the count in word 1, and the
marker last. R20, R21: their values. The settings take their defaults (the header and chassis words, the eight words of a slot, the eight
of a zone, the uplink settings), the command words 0, the enables all eight groups, the ring head 0 and each preference list A, B, C, D;
the thermal words of a record hold ABSENT twice, word 0 of an inventory entry the kind of its bay, each applied duty 100 %, and every other
word 0.
R19, R17: FORMAT_DONE performs the marker write where it alone is left, and the format latch is set.
R19, R174, R145: with FORMAT's marker performed after power-on, FORMAT_DONE opens the ports: every fan present enters SPINUP with
its spin-up timer at 5 s, and the lines are driven. After a pin reset it begins the identity reads instead (R177), the change count
being one for each bay queued (R86, R87). -/
def Obligations.StartupAndFormatPrepareTheImage : Prop :=
  (∀ s : State, Rested s → s.phase = .startup → s.drc.started = false → s.wra = Wra.reset →
      ∃ t : State, exec .drcStartupDone s = .next t ∧ t.drc = { s.drc with started := true, debt := 0, row := 8 } ∧
        t.phase = .formatting false 64 1#32 ∧ t.wra.queue = (formatWrites 1#32).take 64 ∧
        t.wra.queue.head? = some { off := 0, kind := .whole 0#32 } ∧ t.mem = s.mem ∧ t.pins = s.pins ∧ t.links = s.links ∧
        t.formatLatch = s.formatLatch) ∧
  (∀ count : Word,
      (∃ ws : List Update, formatWrites count =
          [{ off := 0, kind := .whole 0#32 }] ++ ws ++ [{ off := 0, kind := .whole 0xA4620C1E#32 }] ∧
        ws.head? = some { off := 1, kind := .whole count } ∧ ws.Pairwise (fun u v => u.off < v.off) ∧
        ∀ off : Nat, (∃ u ∈ ws, u.off = off) ↔ 0 < off ∧ off < 0xF00 ∧ assigned off = true) ∧
      let puts := fun (off value : Nat) => ({ off := off, kind := .whole (BitVec.ofNat 32 value) } : Update) ∈ formatWrites count
      (∀ e ∈ [(0x02, 0), (0x03, 0), (0x04, 0), (0x05, 100), (0x06, 100), (0x07, 25), (0x08, 1200), (0x09, 25), (0x0A, 50), (0x0B, 100),
        (0x0C, 60), (0x0D, 3), (0x0E, 2), (0x0F, 20), (0x10, 0), (0x11, 0), (0x12, 0), (0x13, 0xFF), (0x14, 0), (0xE0, 0), (0xE1, 20),
        (0xE2, 50), (0xE3, 5), (0xE4, 40)], puts e.1 e.2) ∧
      (∀ i : Slot, ∀ e ∈ [(0, 1), (1, 1), (2, 0x04030201), (3, 0), (4, 0), (5, 0), (6, 0), (7, 0)], puts (0x40 + i.val * 8 + e.1) e.2) ∧
      (∀ z : Zone, ∀ e ∈ [(0, 30), (1, 40), (2, 30 + 75 * 65536), (3, 30), (4, 100), (5, 90), (6, 5), (7, 1200)],
        puts (0xC0 + z.val * 8 + e.1) e.2) ∧
      (∀ off : Nat, 0xE5 ≤ off → off < 0xEF → puts off 0) ∧
      (∀ i : Slot, puts (0x202 + i.val * 64) 0x80008000 ∧ puts (0x203 + i.val * 64) 0x80008000) ∧
      (∀ e : EntryNo, puts (0xA00 + e.val * 32) (if e.val < 16 then 1 else if e.val < 22 then 2 else 3)) ∧
      (∀ z : Zone, puts (0x10E + z.val) 100 ∧ puts (0x191 + z.val * 4) 100) ∧
      ∀ off : Nat, 0x100 ≤ off → off < 0xF00 → assigned off = true →
        (∀ i : Slot, off ≠ 0x202 + i.val * 64 ∧ off ≠ 0x203 + i.val * 64) → (∀ e : EntryNo, off ≠ 0xA00 + e.val * 32) →
        (∀ z : Zone, off ≠ 0x10E + z.val ∧ off ≠ 0x191 + z.val * 4) → puts off 0) ∧
  ((∀ s : State, s.phase = .formatted false → ∃ t : State, exec .formatDone s = .next t ∧ t.phase = .operating ∧
      t.mem = s.mem ∧ t.drc = s.drc ∧ t.pins = s.pins ∧ t.outs = outsOf t ∧ t.formatLatch = s.formatLatch ∧
      ∀ p : FanPos, s.pins.fanPres[p] = true →
        t.clc.fans[p].state = .spinup ∧ t.clc.fans[p].spin = some 5000 ∧ t.clc.fans[p].probe = false) ∧
    (∀ s : State, s.phase = .formatted true → ∃ t : State, exec .formatDone s = .next t ∧ t.phase = .identityReads ∧
      t.mem = s.mem ∧ t.pins = s.pins ∧ (∀ b : ModuleBay, t.inv.bays[b].present = s.pins.bayPres b) ∧
      t.inv.changeCount = BitVec.ofNat 32 (allModuleBays.filter fun b => s.pins.bayPres b).length)) ∧
  ∀ (pin : Bool) (cursor : Nat) (count : Word) (s : State), memWf s.mem = true → s.phase = .formatting pin cursor count →
    formatQueued cursor count = true → s.drc.started = true → s.drc.debt < 8 →
    s.wra.queue = [{ off := 0, kind := .whole 0xA4620C1E#32 }] →
    ∃ t : State, exec .formatDone s = .next t ∧ WroteWord s t 0 0xA4620C1E#32 ∧ t.formatLatch = true ∧
      t.phase = (if pin then .identityReads else .operating)

/-- R175: RESET_N asserted: the queues and buffers are emptied, every timer of the blocks stops, every output and the DRAM hold, the
DRC keeps its debt and row (R35) and its round-robin begins again after link 16 (R34), and the clock keeps its time (R173). -/
def Obligations.ResetAssertEmptiesAndHolds : Prop :=
  ∀ s : State, ∃ t : State, exec .resetAssert s = .next t ∧ t.phase = .resetHeld ∧ t.outs = s.outs ∧ t.mem = s.mem ∧
    t.drc = { s.drc with lastLink := 15 } ∧ t.formatLatch = s.formatLatch ∧ t.pins = s.pins ∧ t.pending = s.pending ∧
    t.wra = Wra.reset ∧ t.held = [] ∧ t.inv.queue = [] ∧ t.inv.reading = none ∧
    (∀ b : ModuleBay, t.inv.bays[b].debounce = none ∧ t.inv.bays[b].retry = none) ∧
    (∀ b : PsuBay, t.psm.bays[b].start = none ∧ t.psm.bays[b].restart = none ∧ t.psm.bays[b].decay = none ∧
      t.psm.bays[b].alertTimer = none ∧ t.psm.bays[b].state = s.psm.bays[b].state) ∧
    (∀ p : FanPos, t.clc.fans[p].presence = none ∧ t.clc.fans[p].spin = none ∧ t.clc.fans[p].probeTimer = none ∧
      t.clc.fans[p].state = s.clc.fans[p].state) ∧
    t.pmp.holding = none ∧ t.pmp.strobe = s.pmp.strobe ∧ t.meu.clock = s.meu.clock ∧ t.meu.tail = s.meu.tail ∧
    t.meu.flags = s.meu.flags ∧ t.meu.records = [] ∧
    (∀ i : Slot, t.links[i].lec = 0 ∧ t.links[i].state = .normal ∧ t.links[i].buffer = [] ∧ t.links[i].reads = [] ∧
      t.ssq.slots[i].debounce = none ∧ t.ssq.slots[i].seq = none ∧ t.ssq.slots[i].activityTimer = none ∧
      t.ssq.slots[i].state = s.ssq.slots[i].state ∧ t.pal.slots[i].deadline = none ∧ t.clc.slots[i].fresh = none ∧
      t.ulc.slots[i].settle = none) ∧
    ∀ b : UplinkBay, t.ulc.bays[b].state = s.ulc.bays[b].state ∧ t.ulc.bays[b].power = none ∧ t.ulc.bays[b].link = none ∧
      t.ulc.bays[b].decay = none

/-- R175, R87: the release of RESET_N requests header words 0 and 1, releases the Module Identity Line and switches every bay select
off; the recovery's clock pulses are at most nine. Every other output holds.
R17, R18, R175: the answer of header word 0 is kept, and at the answer of word 1 the part chooses: RECOVER exactly where the format
latch is set and word 0 held the marker; otherwise FORMAT, with count 1, or one more than word 1 where the latch is set. That FORMAT's
first 64 writes enter the queue at its start, so that its cursor stands at 64, is notes/assumptions/22.md. -/
def Obligations.ReleaseChoosesRecoverOrFormat : Prop :=
  (∀ (n : Nat) (s : State), s.phase = .resetHeld → Rested s → s.wra = Wra.reset →
      ∃ t : State, exec (.resetRelease n) s = .next t ∧ t.phase = .header none ∧
        t.wra.reads = [.header 0, .header 1] ∧ t.wra.queue = [] ∧ t.inv.recoveryPulses = min 9 n ∧
        t.outs = { s.outs with baySelect := none, scl := true, sda := true } ∧ t.mem = s.mem ∧ t.drc = s.drc ∧
        t.formatLatch = s.formatLatch) ∧
  (∀ s : State, Rested s → s.drc.started = true → s.drc.debt < 8 → s.wra.queue = [] → s.wra.waiting = [] → s.wra.readsWaiting = [] →
      (s.phase = .header none → s.wra.reads = [.header 0, .header 1] →
        ∃ t : State, exec .headerReadAnswer s = .next t ∧ t.phase = .header (some (s.image 0)) ∧ t.wra.reads = [.header 1] ∧
          t.mem = s.mem) ∧
      (∀ m : Word, s.phase = .header (some m) → s.wra.reads = [.header 1] →
        ∃ t : State, exec .headerReadAnswer s = .next t ∧ t.mem = s.mem ∧
          (if s.formatLatch = true ∧ m = 0xA4620C1E#32 then t.phase = .recovering 0 ∧ t.wra.reads = [.recover 0]
            else t.phase = .formatting true 64 (if s.formatLatch then s.image 1 + 1#32 else 1#32))))

/-- R176: RECOVER reads every assigned image word, each once, in ascending offset order (`recoverOffsets`);
at each answer the next word is requested, and after the last word RECOVER has ended; RECOVER writes nothing. Each
word that RECOVER hands to a block is taken by it: every setting a block keeps a copy of, brought into its range, and with the FORMAT
value for a code that is not defined; the request, the readings, the grant and the epoch, the inserted-at time, the supply's state and fault
count, the inventory entry, the clock, the flags and the ring's words. (The adopt allowance, the uplink records and the wait list are read at
adoption, R178, R179. A profile read back is brought into the ranges of R70 again, notes/assumptions/28.md.) -/
def Obligations.RecoverReadsEveryWordInOrder : Prop :=
  recoverOffsets.Pairwise (· < ·) ∧ (∀ off : Nat, off ∈ recoverOffsets ↔ off < 0xF00 ∧ assigned off = true) ∧
  ∀ (k off : Nat) (s : State), Rested s → s.phase = .recovering k → recoverOffsets[k]? = some off → s.drc.started = true →
    s.drc.debt < 8 → s.wra.queue = [] → s.wra.waiting = [] → s.wra.reads = [.recover off] → s.wra.readsWaiting = [] →
    ∃ t : State, exec .recoverWordAnswer s = .next t ∧ t.mem = s.mem ∧ t.wra.queue = [] ∧
      (∀ next, recoverOffsets[k + 1]? = some next → t.phase = .recovering (k + 1) ∧ t.wra.reads = [.recover next]) ∧
      (recoverOffsets[k + 1]? = none → t.phase = .recovered ∧ t.wra.reads = []) ∧
      (∀ w : Word, w = s.image off →
        let byte := fun lo hi => min hi (max lo (getField w 0 8))
        let nibble := fun hi => min hi (max 1 (getField w 0 4))
        let temp := fun lo => min 150 (max (-40) (signed16 (getField w lo 16)))
        (off = 0x02 → t.meu.requested =
          (if getField w 0 8 = 1 then .operate else if getField w 0 8 = 2 then .quiesce else .configure)) ∧
        (off = 0x04 → t.psm.policy =
          (if getField w 0 8 = 1 then .nPlusOne else if getField w 0 8 = 2 then .nPlusN else .unprotected)) ∧
        (off = 0x05 → t.psm.margin = min 1000 (getField w 0 16)) ∧ (off = 0x06 → t.pal.baseLoad = min 500 (getField w 0 16)) ∧
        (off = 0x07 → t.pal.defaultAllowance = byte 5 100) ∧ (off = 0x09 → t.ssq.presenceDebounce = byte 1 255) ∧
        (off = 0x0A → t.ssq.standbyTimeout = byte 1 255) ∧ (off = 0x0B → t.ssq.mainTimeout = byte 1 255) ∧
        (off = 0x0C → t.ssq.identityTimeout = byte 1 255) ∧ (off = 0x0D → t.ssq.tUp = nibble 15) ∧
        (off = 0x0E → t.ssq.tDown = nibble 15) ∧ (off = 0x0F → t.pal.reduceTimeout = byte 1 255) ∧
        (off = 0x10 → t.meu.load.days = getField w 0 16) ∧
        (off = 0x11 → t.meu.load.hours = min 23 (getField w 0 5) ∧ t.meu.load.minutes = min 59 (getField w 8 6) ∧
          t.meu.load.seconds = min 59 (getField w 16 6)) ∧
        (off = 0x13 → t.meu.enables = w.setWidth 8) ∧ (off = 0x14 → t.meu.head = getField w 0 16 % 64) ∧
        (∀ z : Zone,
          (off = 0xC0 + z.val * 8 → t.clc.zones[z].floorDuty = byte 0 100) ∧
          (off = 0xC0 + z.val * 8 + 1 → t.clc.zones[z].fanWatts = byte 0 200) ∧
          (off = 0xC0 + z.val * 8 + 2 → t.clc.zones[z].tLow = temp 0 ∧ t.clc.zones[z].tHigh = temp 16) ∧
          (off = 0xC0 + z.val * 8 + 3 → t.clc.zones[z].dMin = byte 0 100) ∧
          (off = 0xC0 + z.val * 8 + 4 → t.clc.zones[z].dMax = byte 0 100) ∧
          (off = 0xC0 + z.val * 8 + 5 → t.clc.zones[z].tCrit = temp 0) ∧
          (off = 0xC0 + z.val * 8 + 6 → t.clc.zones[z].slew = nibble 10) ∧
          (off = 0xC0 + z.val * 8 + 7 → t.clc.zones[z].minRpm = min 7650 (getField w 0 13))) ∧
        (off = 0xE0 → t.ulc.failback = (getField w 0 8 == 1)) ∧ (off = 0xE1 → t.ulc.settleTime = byte 1 255) ∧
        (off = 0xE2 → t.ulc.upDebounce = byte 10 255) ∧ (off = 0xE3 → t.ulc.downDebounce = byte 1 25) ∧
        (off = 0xE4 → t.clc.moduleFloor = byte 0 100) ∧
        (∀ i : Slot,
          (off = 0x40 + i.val * 8 → t.ssq.slots[i].enabled = getBit w 0) ∧
          (off = 0x40 + i.val * 8 + 1 → t.pal.slots[i].cls = if getField w 0 8 < 3 then getField w 0 8 else 1) ∧
          (off = 0x40 + i.val * 8 + 2 → t.ulc.slots[i].prefs = prefBays w) ∧
          (off = 0x40 + i.val * 8 + 3 → t.ssq.slots[i].activityCount = getField w 0 5) ∧
          (off = 0x40 + i.val * 8 + 4 →
            t.ssq.slots[i].reclaim = (getField w 0 8 == 1) ∧ t.pal.slots[i].reclaim = (getField w 0 8 == 1)) ∧
          (off = 0x40 + i.val * 8 + 5 → t.ssq.slots[i].locate = getBit w 0 ∧ t.pal.slots[i].forced = getBit w 8) ∧
          (off = 0x200 + i.val * 64 → t.ssq.slots[i].request = getField w 0 16 ∧ t.pal.slots[i].request = getField w 0 16) ∧
          (off = 0x200 + i.val * 64 + 2 → t.clc.slots[i].readings[0] = readingOf (getField w 0 16) ∧
            t.clc.slots[i].readings[1] = readingOf (getField w 16 16)) ∧
          (off = 0x200 + i.val * 64 + 3 → t.clc.slots[i].readings[2] = readingOf (getField w 0 16) ∧
            t.clc.slots[i].readings[3] = readingOf (getField w 16 16)) ∧
          (off = 0x200 + i.val * 64 + 16 →
            t.pal.slots[i].grant = min 2000 (getField w 0 11) ∧ t.pal.slots[i].epoch = getField w 15 8) ∧
          (off = 0x200 + i.val * 64 + 23 → t.ssq.slots[i].inserted.days = getField w 0 16) ∧
          (off = 0x200 + i.val * 64 + 24 → t.ssq.slots[i].inserted.secs = getField w 0 17)) ∧
        (∀ b : PsuBay,
          (off = 0x140 + b.val * 8 → t.psm.bays[b].state = psuStateOf w.toNat) ∧
          (off = 0x140 + b.val * 8 + 2 → t.psm.bays[b].faults = min 255 w.toNat ∧ t.psm.bays[b].band = bandOf (min 255 w.toNat))) ∧
        (∀ e : EntryNo, off = 0xA00 + e.val * 32 + 20 →
          t.inv.entries[e] = entryFrom s.inv.entries[e].kind fun j => s.image (0xA00 + e.val * 32 + j)) ∧
        (off = 0x103 → t.meu.clock.days = getField w 0 16) ∧
        (off = 0x104 → t.meu.clock.hours = min 23 (getField w 0 5) ∧ t.meu.clock.minutes = min 59 (getField w 8 6) ∧
          t.meu.clock.seconds = min 59 (getField w 16 6)) ∧
        (off = 0x106 → t.psm.lost = getBit w 0) ∧ (off = 0x10D → t.inv.changeCount = w) ∧
        (off = 0x1D0 → t.meu.flags = w.setWidth 8) ∧ (off = 0x1D2 → t.meu.tail = w.toNat % 64 ∧ t.meu.writePos = w.toNat % 64) ∧
        (off = 0x1D3 → t.meu.overflow = getField w 0 16))

/-- R180: adoption, once RECOVER or the identity reads have ended, opens the ports; it writes no DRAM word, leaves the clock alone, and
from then on the lines follow the blocks' states. Until then it does nothing.
R178, R177: `v` is the state in which the event has adopted the blocks, before its first pass, the mode and the disabled slots act on it.
Every slot stands there by its held lines, the lines read and its entry: a powered blade runs on, one whose power-good is lost is a
fault, one with standby alone is READY or IDENTIFYING by its entry (a READY slot that meets R49 waits for admission at once), one without
power is detected again. Every supply and every uplink bay stands there by its held line, its entry and the lines read. The order of the
steps that follow is partly the model's (notes/assumptions/30.md, 31.md).
R13, R155, R179: a slot whose preference list is empty joins no uplink's list at adoption, listed or not, and does not wait. -/
def Obligations.AdoptionTakesTheChassisOver : Prop :=
  (∀ (recovered : Bool) (s : State),
      (if recovered then s.phase = .recovered else s.phase = .identityReads ∧ identityReadsDone s = true) →
      ∃ t : State, exec .adoption s = .next t ∧ t.phase = .operating ∧ t.mem = s.mem ∧ t.drc = s.drc ∧ t.pins = s.pins ∧
        t.meu.clock = s.meu.clock ∧ t.formatLatch = s.formatLatch ∧ t.outs = outsOf t ∧ t.pending = s.pending ∧
        ∃ v : State, v = adoptBlocks recovered s ∧ t = ends s (completeAdoption recovered v) ∧
          (∀ i : Slot,
            let r := slotAdopted (readingOfLines s.pins.pres[i] s.pins.latch[i]) s.outs.mainEn[i] s.outs.sbyEn[i] s.pins.mainPg[i]
              s.pins.sbyPg[i] (s.inv.entries[slotEntry i].state == .valid) s.ssq.slots[i].enabled
            v.ssq.slots[i].state =
                (if r.1 = .ready ∧ s.ssq.slots[i].request ≠ 0 ∧ s.ssq.slots[i].enabled = true then .admitWait else r.1) ∧
              v.ssq.slots[i].reason = r.2) ∧
          (∀ b : PsuBay, v.psm.bays[b].state =
            psuAdopted recovered s.outs.psuOn[b] s.psm.bays[b].state s.inv.entries[bayEntry (psuModule b)].state s.pins.pwrOk[b]) ∧
          ∀ b : UplinkBay, v.ulc.bays[b].state =
            uplinkAdopted s.outs.modOn[b] (recovered && (s.image (0x1A0 + b.val * 8)).toNat == 8)
              s.inv.entries[bayEntry (uplinkModule b)].state s.pins.modPg[b] s.pins.linkUp[b]) ∧
  (∀ s : State, s.phase ≠ .recovered → identityReadsDone s = false → EndsIn .adoption s s s) ∧
  (∀ (mainEn sbyEn mainPg sbyPg valid enabled : Bool),
      slotAdopted .absent mainEn sbyEn mainPg sbyPg valid enabled = (.empty, .none) ∧
      slotAdopted .invalid mainEn sbyEn mainPg sbyPg valid enabled = (.empty, .none) ∧
      slotAdopted .unlatched mainEn sbyEn mainPg sbyPg valid enabled = (.detecting, .none) ∧
      slotAdopted .seated true sbyEn true true valid enabled = (.run, .none) ∧
      slotAdopted .seated true sbyEn false sbyPg valid enabled = (.fault, .mainPg) ∧
      slotAdopted .seated true sbyEn true false valid enabled = (.fault, .standbyPg) ∧
      slotAdopted .seated false true mainPg false valid enabled = (.fault, .standbyPg) ∧
      slotAdopted .seated false true mainPg true true enabled = (.ready, .none) ∧
      slotAdopted .seated false true mainPg true false enabled = (.identifying, .none) ∧
      slotAdopted .seated false false mainPg sbyPg valid true = (.detecting, .none) ∧
      slotAdopted .seated false false mainPg sbyPg valid false = (.held, .none)) ∧
  (∀ (recovered on pwrOk : Bool) (old : PsuState) (e : EntryState),
      psuAdopted recovered true old .valid true = .online ∧ psuAdopted recovered true old .valid false = .starting ∧
      psuAdopted true false .retired e pwrOk = .retired ∧ psuAdopted true false .faulted e pwrOk = .faulted ∧
      ((on = true ∨ recovered = false ∨ (old ≠ .retired ∧ old ≠ .faulted)) →
        psuAdopted recovered on old .rejected pwrOk = .rejected ∧ psuAdopted recovered on old .pending pwrOk = .identifying ∧
        psuAdopted recovered on old .reading pwrOk = .identifying ∧ psuAdopted recovered on old .empty pwrOk = .empty) ∧
      ((recovered = false ∨ (old ≠ .retired ∧ old ≠ .faulted)) → psuAdopted recovered false old .valid pwrOk = .starting)) ∧
  (∀ (i : Slot) (b : UplinkBay) (s : State), s.ulc.slots[i].prefs = [] →
      adoptMember i b s = s ∧ adoptHeld i s = s ∧ adoptWait i s = s) ∧
  ∀ (on faulted modPg linkUp : Bool) (e : EntryState),
      uplinkAdopted true faulted .valid true true = .up ∧ uplinkAdopted true faulted .valid true false = .linkDown ∧
      uplinkAdopted true faulted .valid false linkUp = .powering ∧ uplinkAdopted false true e modPg linkUp = .fault ∧
      uplinkAdopted false false .valid modPg linkUp = .off ∧
      ((on = true ∨ faulted = false) →
        uplinkAdopted on faulted .rejected modPg linkUp = .rejected ∧ uplinkAdopted on faulted .pending modPg linkUp = .identifying ∧
        uplinkAdopted on faulted .reading modPg linkUp = .identifying ∧ uplinkAdopted on faulted .empty modPg linkUp = .empty)

/-! ## The memory path (chapter 2) -/

/-- R34, R39, R35, R29: DRAM_ACCESS_PERFORMED. At debt 8 a refresh comes first; else the entry at the head of the write-back queue is
performed, and no other word of the DRAM changes; else, while the ports are open, the port's access, then the first link with an access
behind the one last served: its oldest buffered word, or its oldest read. An access of the port that has waited is performed as it would
have been at once, whatever it is: the same command on the same state with the port idle ends in the same state; so a read of general
store or of an assigned word answers the word, and a write stores it, a settings word as its row stores it. With nothing waiting a refresh lowers a debt of 1 to 7. While
RESET_N is asserted refreshes alone are performed, and nothing before the DRC's start-up has ended (R37).
R35: a refresh that falls due raises the debt by one, up to 8. R39: the first waiting read-back request takes a freed place.
R38: the first waiting update takes a freed entry at the tail of the queue, and the others are looked at again in their order: one
whose word has gained an entry joins it, unless it must go on waiting behind one that still does (R143, R163;
notes/assumptions/13.md). No update is lost: where no waiting update holds one of another word behind it, every update for the word taken
has joined it, and the others wait as before.
R38: an event for which the queue has room ends whole. For one that would leave an update of it waiting that binds its block, each
operation of a block that the event is made of is put off, and then offered by itself, in order: it is carried out whole if the queue takes
every update of it that binds, and else it waits, and nothing of it has happened. So does an operation whose block is held up by one that
waits. What waits is offered again, in its order, at WRITEBACK_UPDATE_TAKEN. The clauses of `offerOne`, `offerAll` and `partByPart` say in
what order; that the operations of an event are taken one by one, and which updates bind (`Update.binds`: not those of the CLC and the ULC,
R143, R163, nor those of the event ring, the group flags and a removal's clearing, whose words no block holds), is the model's reading
(notes/assumptions/13.md). -/
def Obligations.ArbiterServesInOrder : Prop :=
  ((∀ s : State, s.drc.started = true → (s.drc.debt = 8 ∨ (s.phase = .resetHeld ∧ 0 < s.drc.debt)) →
      ∃ t : State, exec .dramAccessPerformed s = .next t ∧ t.mem = s.mem ∧
        t.drc = { s.drc with debt := s.drc.debt - 1, row := (s.drc.row + 1) % 2048 } ∧ t.links = s.links ∧ t.pmp = s.pmp) ∧
    (∀ (u : Update) (rest : List Update) (s : State), memWf s.mem = true → s.drc.started = true → s.drc.debt < 8 →
      s.phase ≠ .resetHeld → s.wra.queue = u :: rest →
      ∃ t : State, exec .dramAccessPerformed s = .next t ∧ WroteWord s t u.off (u.kind.perform (s.image u.off)) ∧
        t.drc = s.drc ∧ t.links = s.links ∧ t.pmp = s.pmp ∧ t.pins = s.pins) ∧
    (∀ (r : PortAccess) (a : BitVec 19) (s : State), s.phase = .operating → s.drc.started = true → s.drc.debt < 8 → s.wra.queue = [] →
      s.wra.reads = [] → s.pmp.holding = some r → r = .read a → imageOffset a.toNat = none → s.pmp.current = true →
      s.pmp.strobe = some r →
      ∃ t : State, exec .dramAccessPerformed s = .next t ∧ t.mem = s.mem ∧ t.pmp.ready = true ∧
        t.pmp.dataOut = some (memRead s.mem a.toNat) ∧ t.pmp.holding = none) ∧
    (∀ (r : PortAccess) (s : State), s.phase = .operating → s.drc.started = true → s.drc.debt < 8 → s.wra.queue = [] →
      s.wra.reads = [] → s.pmp = { strobe := some r, holding := some r, current := true, ready := false, dataOut := none } →
      exec .dramAccessPerformed s = exec (.plainWrite (.processor r))
        { s with pmp := { strobe := none, holding := none, current := false, ready := false, dataOut := none } } ∧
      (memWf s.mem = true →
        (∀ (a : BitVec 19) (off : Nat), r = .read a → imageOffset a.toNat = some off → assigned off = true →
          ∃ t : State, exec .dramAccessPerformed s = .next t ∧ t.mem = s.mem ∧ t.pmp.ready = true ∧
            t.pmp.dataOut = some (s.image off) ∧ t.pmp.holding = none) ∧
        (∀ (a : BitVec 19) (data : Word), r = .write a data → imageOffset a.toNat = none →
          ∃ t : State, exec .dramAccessPerformed s = .next t ∧ memRead t.mem a.toNat = data ∧
            (∀ b, b ≠ a.toNat → memRead t.mem b = memRead s.mem b) ∧ t.pmp.ready = true ∧ t.pmp.holding = none) ∧
        ∀ (off : Nat) (data : Word), r = .write (imageAddress off) data → off < 0x1000 → discardsWrite (kindAt off) = false →
          ∃ t : State, exec .dramAccessPerformed s = .next t ∧ WroteWord s t off (s.stores off data) ∧ t.pmp = Pmp.served off data)) ∧
    (∀ (n : Nat) (i : Slot) (s : State), memWf s.mem = true → s.phase = .operating → s.drc.started = true → s.drc.debt < 8 →
      s.wra.queue = [] → s.wra.reads = [] → s.pmp.holding = none → n < 16 → i = slotIx (s.drc.lastLink.val + 1 + n) →
      s.links[i].waiting = true → (∀ k : Nat, k < n → s.links[slotIx (s.drc.lastLink.val + 1 + k)].waiting = false) →
      ∃ t : State, exec .dramAccessPerformed s = .next t ∧ t.drc = { s.drc with lastLink := i } ∧ t.pmp = s.pmp ∧
        (∀ j : Slot, j ≠ i → t.links[j] = s.links[j]) ∧
        (∀ e rest, s.links[i].buffer = e :: rest →
          t.links[i] = { s.links[i] with buffer := rest } ∧ WroteWord s t e.off (e.store (s.image e.off))) ∧
        ∀ r rest, s.links[i].buffer = [] → s.links[i].reads = r :: rest →
          t.mem = s.mem ∧ t.links[i].reads = rest ∧
            ∀ f, s.links[i].frame = some f → t.links[i].frame = some (if r.live then { f with answer := some (s.image r.off) } else f)) ∧
    (∀ s : State, s.drc.started = true → 0 < s.drc.debt → s.drc.debt < 8 → s.phase ≠ .resetHeld → s.wra.queue = [] → s.wra.reads = [] →
      (s.phase = .operating → s.pmp.holding = none ∧ ∀ j : Slot, s.links[j].waiting = false) →
      ∃ t : State, exec .dramAccessPerformed s = .next t ∧ t.mem = s.mem ∧
        t.drc = { s.drc with debt := s.drc.debt - 1, row := (s.drc.row + 1) % 2048 } ∧ t.links = s.links ∧ t.pmp = s.pmp) ∧
    (∀ s : State, s.drc.started = false → EndsIn .dramAccessPerformed s s s)) ∧
  ((∀ s : State, s.drc.started = true → ∃ t : State, exec .refreshDue s = .next t ∧
      t.drc = { s.drc with debt := min 8 (s.drc.debt + 1) } ∧ t.mem = s.mem ∧ t.links = s.links ∧ t.pmp = s.pmp) ∧
    (∀ s : State, s.drc.started = false → EndsIn .refreshDue s s s) ∧
    (∀ s : State, exec .writebackUpdateTaken s = .next (resumeHeld (react (effect .writebackUpdateTaken) s))) ∧
    (∀ (u : Update) (rest : List Update) (s : State), s.phase = .operating → s.wra.waiting = u :: rest → s.wra.queue.length < 64 →
      ∃ v : State, effect .writebackUpdateTaken s = v ∧ v = { s with wra := v.wra } ∧
        v.wra = rest.foldl Wra.rejoin { s.wra with queue := s.wra.queue ++ [u], waiting := [] } ∧
        ((∀ x ∈ rest, holdsWord s.wra.queue x.off = false) → holdsWord s.wra.queue u.off = false →
          (∀ x ∈ rest, ∀ y ∈ rest, x.off ≠ y.off → x.precedes y = false) →
          v.wra.queue = s.wra.queue ++
              [(rest.filter fun x => x.off == u.off).foldl (fun e x => { e with kind := e.kind.join x.kind }) u] ∧
            v.wra.waiting = rest.filter fun x => x.off != u.off)) ∧
    (∀ (w : Wra) (x : Update),
      w.rejoin x = (if holdsWord w.queue x.off = true ∧ w.behind x = false
        then { w with queue := w.queue.map fun e => if e.off = x.off then { e with kind := e.kind.join x.kind } else e }
        else { w with waiting := w.waiting ++ [x] })) ∧
    (∀ s : State, s.phase = .operating → (s.wra.waiting = [] ∨ 64 ≤ s.wra.queue.length) → effect .writebackUpdateTaken s = s) ∧
    (∀ (f : State → State) (s : State), let u := f s
      (Fits s u ↔ (ends s u).phase ≠ s.phase ∨ (ends s u).bound ≤ u.bound) ∧ (Fits s u → react f s = ends s u) ∧
      (¬Fits s u → let t := ends s (f { s with later := some [] })
        react f s = offerAll Config.agendaFuel (t.later.getD []) { t with later := none })) ∧
    (∀ (m : Held) (k : Scope) (f : State → State) (s : State), m.scope s.inv = some k →
      (∀ l : List Held, s.later = some l → whenFree m f s = { s with later := some (l ++ [m]) }) ∧
      (s.acts k → whenFree m f s = f s) ∧
      (s.later = none → s.holds k = true → whenFree m f s = { s with held := s.held ++ [m] })) ∧
    (∀ (m : Held) (s : State),
      let v := actHeld m { s with later := some [] }
      let t := ends s v
      if s.holdsBack m = false ∧ t.bound ≤ v.bound then offerOne m s = ({ t with later := none }, t.later.getD [])
        else offerOne m s = ({ s with held := s.held ++ [m] }, [])) ∧
    (∀ (m : Held) (rest : List Held) (n : Nat) (s : State),
      offerAll (n + 1) (m :: rest) s = offerAll n (rest ++ (offerOne m s).2) (offerOne m s).1 ∧
      offerAll (n + 1) [] s = (if (s.pal.due = true ∨ s.pal.reduced = true) ∧ s.later = none ∧ s.holds .pal = false
        then offerAll n [.palTurn] s else s) ∧
      resumeHeld s = offerAll Config.agendaFuel s.held { s with held := [] }) ∧
    (∀ (w : Word), let binds := fun off : Nat => ({ off := off, kind := .whole w } : Update).binds
      (∀ off ∈ [0x100, 0x107, 0x10B, 0x10D, 0x140, 0x16F, 0x1D1, 0x1D2, 0x1D3, 0x210, 0x213, 0x215, 0x219, 0x5D0, 0x5D9, 0xA00, 0xD34],
        binds off = true) ∧
      ∀ off ∈ [0x10C, 0x10E, 0x115, 0x116, 0x119, 0x170, 0x18F, 0x190, 0x19F, 0x1A0, 0x1BF, 0x1C0, 0x1CF, 0x1D0, 0x200, 0x20E, 0x214, 0x5D4,
        0x600, 0x9FF, 0xE00, 0xEFF], binds off = false) ∧
    (∀ (i : Slot) (b : PsuBay) (w : Word) (r : ModuleRead) (s : State), s.phase = .operating → s.later = none →
      (s.holds (.slot i) = true → EndsIn (.standbyTimeout i) s s { s with held := s.held ++ [.event (.standbyTimeout i)] }) ∧
      (s.holds (.psu b) = true → EndsIn (.startTimerExpiry b) s s { s with held := s.held ++ [.event (.startTimerExpiry b)] }) ∧
      (s.inv.reading = some r → s.holds (.entry (bayEntry r.bay)) = true →
        EndsIn (.readerWord0Read w) s s { s with held := s.held ++ [.event (.readerWord0Read w)] })) ∧
    (∀ (r : ReadRequest) (rest : List ReadRequest) (s : State), s.wra.readsWaiting = r :: rest → s.wra.reads.length < 64 →
      ∃ v : State, EndsIn .readbackRequestTaken s s v ∧ v = { s with wra := v.wra } ∧
        v.wra.reads = s.wra.reads ++ [r] ∧ v.wra.readsWaiting = rest ∧ v.wra.queue = s.wra.queue) ∧
    ∀ s : State, (s.wra.readsWaiting = [] ∨ 64 ≤ s.wra.reads.length) → EndsIn .readbackRequestTaken s s s)

/-- R39, R8, R16: what a performed write-back leaves in its word: a whole word replaces it, fields and flags keep every bit outside
them, and an acknowledgement raises the count modulo 256 and clears a commit field that still holds the length.
R38: two updates for one word leave, performed as the one entry they joined in, what they leave performed one after the other. The
acknowledgements of one commit are the exception (R16); a clearing that has joined one is the model's (notes/assumptions/9.md). -/
def Obligations.WriteBacksKeepTheBitsOutsideThem : Prop :=
  ((∀ v w : Word, (UpdateKind.whole v).perform w = v) ∧
    (∀ (m v w : Word) (k : Nat), k < 32 →
      ((UpdateKind.fields m v).perform w).getLsbD k = (if m.getLsbD k then v.getLsbD k else w.getLsbD k)) ∧
    (∀ (f w : Word) (k : Nat), k < 32 → ((UpdateKind.flags f).perform w).getLsbD k = (f.getLsbD k || w.getLsbD k)) ∧
    (∀ (l n : Nat) (w : Word), l < 256 →
      getField ((UpdateKind.ack l n false).perform w) 16 8 = (getField w 16 8 + n) % 256 ∧
      getField ((UpdateKind.ack l n false).perform w) 0 8 = (if getField w 0 8 = l then 0 else getField w 0 8) ∧
      getField ((UpdateKind.ack l n false).perform w) 8 8 = getField w 8 8 ∧
      getField ((UpdateKind.ack l n false).perform w) 24 8 = getField w 24 8)) ∧
  (∀ a b : UpdateKind, (∀ l n c, a ≠ .ack l n c) → (∀ l n c, b ≠ .ack l n c) →
      ∀ w : Word, (a.join b).perform w = b.perform (a.perform w))

/-- R23, R1, R7: PLAIN_WRITE by the processor. A write of general store stores the whole word as written; a read of it, and of an
assigned image word, answers the word; a write of a word the processor does not own is discarded and a read of an unassigned
word answers zero, both without a DRAM access.
R23, R24: the release of the strobe ends READY and the data lines, and leaves an access the port has taken to run to its end; a
strobe that is asserted meanwhile is no access of the DRAM yet: the port still holds the first.
R1, R2, section 1.13: the image map, at the first and last offset of each of its regions. -/
def Obligations.ProcessorAccessesTheDram : Prop :=
  (∀ s : State, memWf s.mem = true → FreePort s →
      (∀ (a : BitVec 19) (data : Word), imageOffset a.toNat = none →
        ∃ t : State, exec (.plainWrite (.processor (.write a data))) s = .next t ∧ memRead t.mem a.toNat = data ∧
          (∀ b, b ≠ a.toNat → memRead t.mem b = memRead s.mem b) ∧ t.pmp.ready = true ∧ t.links = s.links ∧ t.drc = s.drc) ∧
      (∀ a : BitVec 19, imageOffset a.toNat = none →
        ∃ t : State, exec (.plainWrite (.processor (.read a))) s = .next t ∧ t.mem = s.mem ∧ t.pmp.ready = true ∧
          t.pmp.dataOut = some (memRead s.mem a.toNat)) ∧
      (∀ off : Nat, off < 0x4000 →
        ∃ t : State, exec (.plainWrite (.processor (.read (imageAddress off)))) s = .next t ∧ t.mem = s.mem ∧ t.pmp.ready = true ∧
          t.pmp.dataOut = some (if assigned off then s.image off else 0#32)) ∧
      (∀ (off : Nat) (data : Word), off < 0x4000 → discardsWrite (kindAt off) = true →
        ∃ t : State, exec (.plainWrite (.processor (.write (imageAddress off) data))) s = .next t ∧ t.mem = s.mem ∧
          t.pmp.ready = true)) ∧
  (∀ s : State, ∃ t : State, exec .strobeRelease s = .next t ∧
      t.pmp = { strobe := none, holding := s.pmp.holding, current := false, ready := false, dataOut := none } ∧ t.mem = s.mem ∧
      t.links = s.links ∧ t.drc = s.drc ∧ t.phase = s.phase) ∧
  (∀ (a h : PortAccess) (s : State), s.pmp.holding = some h → s.pmp.strobe = none → s.pmp.ready = false →
      ∃ t : State, exec (.plainWrite (.processor a)) s = .next t ∧ t.mem = s.mem ∧ t.drc = s.drc ∧ t.links = s.links ∧
        t.pmp.holding = some h ∧ t.pmp.strobe = some a ∧ t.pmp.current = false ∧ t.pmp.ready = false) ∧
  (kindAt 0x00 = .marker ∧ kindAt 0x01 = .device ∧ kindAt 0x03 = .command .abort ∧ kindAt 0x12 = .command .clockLoad ∧
    kindAt 0x14 = .ringHead ∧ kindAt 0x15 = .unassigned ∧ kindAt 0x3F = .unassigned ∧ kindAt 0x40 = .settings (slotFields 0) ∧
    kindAt 0x42 = .prefs ∧ kindAt 0x46 = .command (.faultClear 0) ∧ kindAt 0xBF = .command (.linkClear 15) ∧
    kindAt 0xC0 = .settings (zoneFields 0) ∧ kindAt 0xDF = .settings (zoneFields 7) ∧ kindAt 0xE4 = .settings (uplinkFields 0xE4) ∧
    kindAt 0xE5 = .command (.psuClear 0) ∧ kindAt 0xEA = .command (.psuClear 5) ∧ kindAt 0xEB = .command (.uplinkClear 0) ∧
    kindAt 0xEE = .command (.uplinkClear 3) ∧ kindAt 0xEF = .unassigned ∧ kindAt 0xFF = .unassigned ∧ kindAt 0x100 = .device ∧
    kindAt 0x1CF = .device ∧ kindAt 0x1D0 = .flags ∧ kindAt 0x1D1 = .device ∧ kindAt 0x1D3 = .device ∧
    kindAt 0x1D4 = .unassigned ∧ kindAt 0x1FF = .unassigned ∧ kindAt 0x200 = .blade 0 (recordFields 0) ∧
    kindAt 0x20E = .blade 0 (recordFields 14) ∧ kindAt 0x20F = .commit 0 ∧ kindAt 0x210 = .device ∧ kindAt 0x22F = .device ∧
    kindAt 0x230 = .unassigned ∧ kindAt 0x23F = .unassigned ∧ kindAt 0x240 = .blade 1 (recordFields 0) ∧
    kindAt 0x5CF = .commit 15 ∧ kindAt 0x5FF = .unassigned ∧ kindAt 0x600 = .blade 0 [⟨0, 32, .any⟩] ∧
    kindAt 0x9FF = .blade 15 [⟨0, 32, .any⟩] ∧ kindAt 0xA00 = .device ∧ kindAt 0xA14 = .device ∧ kindAt 0xA15 = .unassigned ∧
    kindAt 0xA20 = .device ∧ kindAt 0xD34 = .device ∧ kindAt 0xD35 = .unassigned ∧ kindAt 0xD40 = .unassigned ∧
    kindAt 0xDFF = .unassigned ∧ kindAt 0xE00 = .device ∧ kindAt 0xEFF = .device ∧ kindAt 0xF00 = .unassigned ∧
    kindAt 0x3FFF = .unassigned)

/-! ## The slot links (2.2–2.5) -/

/-- R25, R26, R3: a FETCH frame of a link that is not ISOLATED, with its header and `n` bytes clocked after it. Where the offset reaches
an assigned word its read is requested, every byte clocked before the answer leaves data-out high, and the frame stands at the next
offset; an unmapped offset, and an unassigned word of the record (48–63), are answered with zero without an access. No other link, no DRAM word, the port and the count stay.
R26: a PEEK of a link that is not ISOLATED requests the slot's summary word; bytes clocked before its answer change nothing.
R26: the delivery of a word once it has been read: a start byte of zero, then its four bytes, most significant first, while the
next word is requested.
R25: on an ISOLATED link a FETCH or PEEK frame is disregarded, without an error: it requests and counts nothing; and whatever bytes follow
in a disregarded frame do nothing, until its select is released. The same holds of every frame, whatever its command, that begins while
image preparation, recovery or a reset is under way. -/
def Obligations.FetchAndPeekRequestAndDeliverWords : Prop :=
  (∀ (i : Slot) (offset : BitVec 16) (n : Nat) (s : State), s.phase = .operating → s.links[i].frame = none →
      s.links[i].state ≠ .isolated →
      ∃ t : State, exec (.fetch i offset n) s = .next t ∧ t.mem = s.mem ∧ t.pmp = s.pmp ∧ t.drc = s.drc ∧
        (∀ j : Slot, j ≠ i → t.links[j] = s.links[j]) ∧ t.links[i].lec = s.links[i].lec ∧ t.links[i].state = s.links[i].state ∧
        t.links[i].buffer = s.links[i].buffer ∧ t.links[i].frame.isSome = true ∧
        (∀ f ∈ t.links[i].frame, f.command = .fetch ∧ f.disregarded = false) ∧
        (∀ off, windowOff i (offset.toNat % 1024) = some off → assigned off = true →
          t.links[i].reads = s.links[i].reads ++ [{ off := off, live := true }] ∧ t.links[i].dataOut = 0xFF#8 ∧
          ∀ f ∈ t.links[i].frame, f.offset = (offset.toNat % 1024 + 1) % 1024) ∧
        ((windowOff i (offset.toNat % 1024)).any assigned = false → n = 0 →
          t.links[i].reads = s.links[i].reads ∧ ∀ f ∈ t.links[i].frame, f.answer = some 0#32)) ∧
  (∀ (i : Slot) (n : Nat) (s : State), s.phase = .operating → s.links[i].frame = none → s.links[i].state ≠ .isolated →
      ∃ t : State, exec (.peek i n) s = .next t ∧ t.mem = s.mem ∧ t.pmp = s.pmp ∧ t.drc = s.drc ∧
        (∀ j : Slot, j ≠ i → t.links[j] = s.links[j]) ∧ t.links[i].lec = s.links[i].lec ∧ t.links[i].buffer = s.links[i].buffer ∧
        t.links[i].reads = s.links[i].reads ++ [{ off := 0x200 + i.val * 64 + 16, live := true }] ∧
        t.links[i].frame.isSome = true ∧ ∀ f ∈ t.links[i].frame, f.command = .peek ∧ f.disregarded = false) ∧
  ((∀ (i : Slot) (offset : BitVec 16) (n : Nat) (c : Instr) (s : State), s.phase = .operating → s.links[i].frame = none →
      s.links[i].state = .isolated → c = .fetch i offset n ∨ c = .peek i n →
      ∃ t : State, exec c s = .next t ∧ t.mem = s.mem ∧ t.pmp = s.pmp ∧ t.drc = s.drc ∧
        ∃ f : Frame, f.disregarded = true ∧ t.links = s.links.set i { s.links[i] with frame := some f, dataOut := 0xFF#8 }) ∧
    (∀ (i : Slot) (offset : BitVec 16) (mask data : Word) (b : Byte) (n : Nat) (c : Instr) (s : State), s.phase ≠ .operating →
      s.links[i].frame = none →
      c ∈ [.fetch i offset n, .peek i n, .store i offset data, .merge i offset mask data, .unknownCommand i b] →
      ∃ t : State, exec c s = .next t ∧ t.mem = s.mem ∧ t.pmp = s.pmp ∧ t.drc = s.drc ∧
        ∃ f : Frame, f.disregarded = true ∧ t.links = s.links.set i { s.links[i] with frame := some f, dataOut := 0xFF#8 }) ∧
    ∀ (i : Slot) (bytes : List Byte) (f : Frame) (s : State), s.links[i].frame = some f → f.disregarded = true →
      linkBytes i bytes s = s) ∧
  (∀ (i : Slot) (w : Word) (f : Frame) (s : State), s.links[i].frame = some f → f.disregarded = false →
      (f.command = .peek ∨ (f.command = .fetch ∧ f.header = 2)) → f.unit = [] → f.answer = some w →
      (f.command = .peek → ((linkBytes i [0xFF#8] s).links[i]).reads =
        s.links[i].reads ++ [{ off := 0x200 + i.val * 64 + 16, live := true }]) ∧
      (∀ off, f.command = .fetch → windowOff i f.offset = some off → assigned off = true →
        ((linkBytes i [0xFF#8] s).links[i]).reads = s.links[i].reads ++ [{ off := off, live := true }]) ∧
      let sent := fun n => ((linkBytes i (List.replicate n 0xFF#8) s).links[i]).dataOut
      sent 1 = 0x00#8 ∧ sent 2 = BitVec.ofNat 8 (getField w 24 8) ∧ sent 3 = BitVec.ofNat 8 (getField w 16 8) ∧
        sent 4 = BitVec.ofNat 8 (getField w 8 8) ∧ sent 5 = BitVec.ofNat 8 (getField w 0 8))

/-- R27, R29, R4: a STORE word at an S field of the slot's record or FRU area opens its frame and is buffered, each field brought into
its range, and the frame goes on at the next offset. At a word of the record the blade does not own it is discarded without an error
(R4). At the chassis summary or an unmapped offset it is an error and nothing is buffered (R30). A word that finds the buffer full makes
the frame overrun: an error, and neither this nor a later word of the frame is buffered (R29). The DRAM does not change before the arbiter
serves the link.
R28, R8: a MERGE frame buffers its word with the mask limited to the S bits of the word; an empty mask buffers nothing, and is no
error; a mask of the whole word makes a plain write, each field brought into its range. Of the commit word the low byte alone is merged; of a
word of the record the blade does not own nothing is. At the chassis summary or an unmapped offset a MERGE is an error, and at a full buffer it
overruns; either way it buffers nothing (R30, R29).
R30, R31: either error counts 8, the link's state follows the count, and the event its crossing calls for is raised, also where the count
crosses 96, 128 or 255; a count whose own earlier publication still waits is raised later (R38, notes/assumptions/13.md).
R25: on a RESTRICTED or an ISOLATED link a STORE or MERGE frame is disregarded, without an error: it buffers and counts nothing. -/
def Obligations.StoreAndMergeBufferTheirWords : Prop :=
  (∀ (i : Slot) (offset : BitVec 16) (data : Word) (s : State), s.phase = .operating → s.links[i].frame = none →
      s.links[i].state = .normal → s.links[i].buffer.length < 4 →
      ∃ t : State, exec (.store i offset data) s = .next t ∧ t.mem = s.mem ∧ t.pmp = s.pmp ∧ t.drc = s.drc ∧
        (∀ j : Slot, j ≠ i → t.links[j] = s.links[j]) ∧ t.links[i].reads = s.links[i].reads ∧
        (∀ f ∈ t.links[i].frame, f.command = .store ∧ f.part = [] ∧ f.offset = (offset.toNat % 1024 + 1) % 1024) ∧
        t.links[i].frame.isSome = true ∧
        (∀ (off : Nat) (fs : List FieldSpec), windowOff i (offset.toNat % 1024) = some off → kindAt off = .blade i fs →
          t.links[i].lec = s.links[i].lec ∧
          t.links[i].buffer = s.links[i].buffer ++ [{ off := off, data := storeFields fs 0#32 data, mask := none }]) ∧
        (∀ off : Nat, windowOff i (offset.toNat % 1024) = some off → off < 0x600 → 0x200 ≤ off →
          (kindAt off = .device ∨ kindAt off = .unassigned) →
          t.links[i].buffer = s.links[i].buffer ∧ t.links[i].lec = s.links[i].lec) ∧
        (0x080 ≤ offset.toNat % 1024 → t.links[i].buffer = s.links[i].buffer ∧ ∀ f ∈ t.links[i].frame, f.errored = true) ∧
        (0x080 ≤ offset.toNat % 1024 → s.acts (.link i) → Fits s (effect (.store i offset data) s) → let n := min 255 (s.links[i].lec + 8)
          t.links[i].lec = n ∧ t.links[i].state = linkStateOf n)) ∧
  (∀ (i : Slot) (offset : BitVec 16) (mask data : Word) (s : State), s.phase = .operating → s.links[i].frame = none →
      s.links[i].state = .normal → s.acts (.link i) → 0x080 ≤ offset.toNat % 1024 →
      let n := min 255 (s.links[i].lec + 8)
      ∀ c : Instr, c = .store i offset data ∨ c = .merge i offset mask data →
      ∃ u : State, EndsIn c s s u ∧ u.links[i].lec = n ∧ u.links[i].state = linkStateOf n ∧ u.ssq.slots[i].linkState = linkStateOf n ∧
        (∀ j : Slot, j ≠ i → u.links[j] = s.links[j]) ∧ u.links[i].buffer = s.links[i].buffer ∧
        (if s.links[i].lec < 96 ∧ 96 ≤ n then Raised .linkWarning (.slot i) (putField 0 n) s u
          else if s.links[i].lec < 128 ∧ 128 ≤ n then Raised .linkRestricted (.slot i) (putField 0 n) s u
          else if s.links[i].lec < 255 ∧ n = 255 then Raised .linkIsolated (.slot i) (putField 0 255) s u
          else NotRaised s u)) ∧
  (∀ (i : Slot) (offset : BitVec 16) (data : Word) (off : Nat) (fs : List FieldSpec) (s : State), s.phase = .operating →
      s.links[i].frame = none → s.links[i].state = .normal → s.links[i].buffer.length = 4 →
      windowOff i (offset.toNat % 1024) = some off → kindAt off = .blade i fs →
      ∃ t : State, exec (.store i offset data) s = .next t ∧ t.mem = s.mem ∧ t.links[i].buffer = s.links[i].buffer ∧
        (s.acts (.link i) → Fits s (effect (.store i offset data) s) → t.links[i].lec = min 255 (s.links[i].lec + 8)) ∧
        ∃ f, t.links[i].frame = some f ∧ f.overrun = true ∧ f.errored = true ∧
          ∀ (data' : Word) (s' : State), s'.links[i].frame = some f →
            ((storeWord i data' s').links[i]).buffer = s'.links[i].buffer) ∧
  (∀ (i : Slot) (offset : BitVec 16) (mask data : Word) (off : Nat) (fs : List FieldSpec) (s : State), s.phase = .operating →
      s.links[i].frame = none → s.links[i].state = .normal → s.links[i].buffer.length < 4 →
      windowOff i (offset.toNat % 1024) = some off → kindAt off = .blade i fs → mask ≠ BitVec.allOnes 32 →
      ∃ t : State, exec (.merge i offset mask data) s = .next t ∧ t.mem = s.mem ∧ t.pmp = s.pmp ∧ t.drc = s.drc ∧
        (∀ j : Slot, j ≠ i → t.links[j] = s.links[j]) ∧ t.links[i].reads = s.links[i].reads ∧ t.links[i].lec = s.links[i].lec ∧
        t.links[i].frame.isSome = true ∧ (∀ f ∈ t.links[i].frame, f.command = .merge ∧ f.complete = true) ∧
        t.links[i].buffer = (if mask &&& fieldsMask fs = 0#32 then s.links[i].buffer
          else s.links[i].buffer ++ [{ off := off, data := data, mask := some (mask &&& fieldsMask fs) }])) ∧
  (∀ (i : Slot) (offset : BitVec 16) (mask data : Word) (off : Nat) (s : State), s.phase = .operating → s.links[i].frame = none →
      s.links[i].state = .normal → windowOff i (offset.toNat % 1024) = some off →
      ∃ t : State, exec (.merge i offset mask data) s = .next t ∧ t.mem = s.mem ∧ t.pmp = s.pmp ∧ t.drc = s.drc ∧
        (∀ j : Slot, j ≠ i → t.links[j] = s.links[j]) ∧ t.links[i].reads = s.links[i].reads ∧
        (∀ f ∈ t.links[i].frame, f.command = .merge ∧ f.complete = true) ∧
        (s.links[i].buffer.length < 4 →
          (∀ fs : List FieldSpec, kindAt off = .blade i fs → mask = BitVec.allOnes 32 → t.links[i].lec = s.links[i].lec ∧
            t.links[i].buffer = s.links[i].buffer ++ [{ off := off, data := storeFields fs 0#32 data, mask := none }]) ∧
          (kindAt off = .commit i → t.links[i].lec = s.links[i].lec ∧
            t.links[i].buffer = (if mask &&& 0xFF#32 = 0#32 then s.links[i].buffer
              else s.links[i].buffer ++ [{ off := off, data := data, mask := some (mask &&& 0xFF#32) }]))) ∧
        (off < 0x600 → 0x200 ≤ off → (kindAt off = .device ∨ kindAt off = .unassigned) →
          t.links[i].buffer = s.links[i].buffer ∧ t.links[i].lec = s.links[i].lec) ∧
        (∀ fs : List FieldSpec, s.links[i].buffer.length = 4 → kindAt off = .blade i fs → mask &&& fieldsMask fs ≠ 0#32 →
          t.links[i].buffer = s.links[i].buffer ∧ (∀ f ∈ t.links[i].frame, f.overrun = true ∧ f.errored = true) ∧
          (s.acts (.link i) → Fits s (effect (.merge i offset mask data) s) → t.links[i].lec = min 255 (s.links[i].lec + 8)))) ∧
  (∀ (i : Slot) (offset : BitVec 16) (mask data : Word) (c : Instr) (s : State), s.phase = .operating → s.links[i].frame = none →
      s.links[i].state ≠ .normal → c = .store i offset data ∨ c = .merge i offset mask data →
      ∃ t : State, exec c s = .next t ∧ t.mem = s.mem ∧ t.pmp = s.pmp ∧ t.drc = s.drc ∧
        ∃ f : Frame, f.disregarded = true ∧ t.links = s.links.set i { s.links[i] with frame := some f, dataOut := 0xFF#8 })

/-- R25, R30, R31: UNKNOWN_COMMAND. A command byte that is none of the four counts 8 on the link, its state follows the count, and the
frame is disregarded to its end; on an ISOLATED link the frame is disregarded uncounted.
A count whose own earlier publication still waits is raised later (R38, notes/assumptions/13.md).
R31: one error counted raises the event its crossing calls for, with its cause and the new count as detail, and no other; the count
and the state are published at each change, and the state is handed to the SSQ.
R27, R30, R33: the end of a frame, after the bytes that come before it. A whole frame without an error lowers a count above 0 by one; a
frame released short counts an error; a disregarded frame does nothing but end. Words already buffered are kept.
R33, R63: the end of a taken frame, with an error or without, is activity of its blade: a watched slot's timer starts again at its full length,
and a SILENT slot is watched again, which is told to the PAL; a slot that is held up takes it later (notes/assumptions/13.md). The end of a
disregarded frame is none. -/
def Obligations.ErrorsAreCountedAndFramesJudged : Prop :=
  (∀ (i : Slot) (b : Byte) (s : State), unknownOk b = true → s.phase = .operating → s.links[i].frame = none →
      ∃ t : State, exec (.unknownCommand i b) s = .next t ∧ t.links[i].frame.isSome = true ∧
        (∀ f ∈ t.links[i].frame, f.disregarded = true) ∧ t.links[i].buffer = s.links[i].buffer ∧
        (∀ j : Slot, j ≠ i → t.links[j] = s.links[j]) ∧ t.mem = s.mem ∧ t.pmp = s.pmp ∧
        (s.links[i].state ≠ .isolated → s.acts (.link i) → Fits s (effect (.unknownCommand i b) s) →
          t.links[i].lec = min 255 (s.links[i].lec + 8) ∧ t.links[i].state = linkStateOf (min 255 (s.links[i].lec + 8)) ∧
            t.ssq.slots[i].linkState = t.links[i].state) ∧
        (s.links[i].state = .isolated → t.links[i].lec = s.links[i].lec ∧ t.links[i].state = .isolated)) ∧
  (∀ (i : Slot) (s : State), let n := min 255 (s.links[i].lec + 8); let t := countError i s
      t.links[i].lec = n ∧ t.links[i].state = linkStateOf n ∧ t.ssq.slots[i].linkState = linkStateOf n ∧
      (s.links[i].lec < 255 → t.wra.forced = s.wra.forced ++
        [(0x212 + i.val * 64, BitVec.allOnes 32), (0x210 + i.val * 64, 0x30000000#32)]) ∧
      (s.links[i].lec < 96 → 96 ≤ n → Raised .linkWarning (.slot i) (putField 0 n) s t) ∧
      (96 ≤ s.links[i].lec → s.links[i].lec < 128 → 128 ≤ n → Raised .linkRestricted (.slot i) (putField 0 n) s t) ∧
      (128 ≤ s.links[i].lec → s.links[i].lec < 255 → n = 255 → Raised .linkIsolated (.slot i) (putField 0 255) s t) ∧
      (n < 96 ∨ (96 ≤ s.links[i].lec ∧ n < 128) ∨ (128 ≤ s.links[i].lec ∧ n < 255) ∨ 255 ≤ s.links[i].lec → NotRaised s t)) ∧
  ∀ (i : Slot) (bytes : List Byte) (f : Frame) (s : State), (linkBytes i bytes s).links[i].frame = some f →
    ∃ t : State, exec (.frameEnd i bytes) s = .next t ∧
      let l := (linkBytes i bytes s).links[i]
      t.links[i].frame = none ∧ t.links[i].dataOut = 0xFF#8 ∧ t.links[i].buffer = l.buffer ∧
      t.links[i].reads = l.reads.map (fun r => { r with live := false }) ∧
      (∀ j : Slot, j ≠ i → t.links[j] = s.links[j]) ∧ t.mem = s.mem ∧ t.pmp = s.pmp ∧ t.drc = s.drc ∧
      (s.acts (.link i) → Fits s (effect (.frameEnd i bytes) s) → t.links[i].lec =
        (if f.disregarded then l.lec else if f.short then min 255 (l.lec + 8) else if f.errored then l.lec else l.lec - 1)) ∧
      ∃ u : State, EndsIn (.frameEnd i bytes) s s u ∧
        let q := s.ssq.slots[i]
        let x := u.ssq.slots[i]
        (f.disregarded = true → x.activity = q.activity ∧ x.activityTimer = q.activityTimer) ∧
        (f.disregarded = false → s.later = none → s.holds (.slot i) = true →
          x.activity = q.activity ∧ x.activityTimer = q.activityTimer ∧ u.held.getLast? = some (.ssqActivity i)) ∧
        (f.disregarded = false → s.acts (.slot i) →
          (q.activity = .stopped → x.activity = .stopped ∧ x.activityTimer = q.activityTimer) ∧
          (q.activity ≠ .stopped → q.activityCount ≠ 0 →
            x.activity = .watching ∧ x.activityTimer = some (q.activityCount * 8000)) ∧
          (q.activity = .silent → Msg.palSilent i false ∈ u.agenda))

/-- R4, R6, R11, R14: a blade's write of its own words, with the link and the arbiter free: the word stored is the one its rule gives,
no other DRAM word changes, and the STORE frame stands open at the next offset. A thermal reading is brought into −40 to 150 °C, unless
it is the ABSENT marker 0x8000. The request is taken by the SSQ once the slot is not held up (notes/assumptions/13.md). -/
def Obligations.BladeWritesArePerformed : Prop :=
  ∀ (i : Slot) (s : State), memWf s.mem = true → FreeLink s i →
    (∀ data : Word, ∃ t : State, exec (.request i data) s = .next t ∧
      WroteWord s t (0x200 + i.val * 64) (putField 0 (min 2000 (getField data 0 16))) ∧ StoreOpenAt t i 1 ∧
      (s.acts (.slot i) → Fits s (effect (.request i data) s) → t.ssq.slots[i].request = min 2000 (getField data 0 16)) ∧
      t.pmp = s.pmp ∧
      ∀ j : Slot, j ≠ i → t.links[j] = s.links[j]) ∧
    (∀ data : Word, ∃ t : State, exec (.drawnReport i data) s = .next t ∧
      WroteWord s t (0x201 + i.val * 64) (putField 0 (min 2000 (getField data 0 16)) ||| putField 16 (getField data 16 8)) ∧
      StoreOpenAt t i 2 ∧ t.pmp = s.pmp ∧ ∀ j : Slot, j ≠ i → t.links[j] = s.links[j]) ∧
    (∀ (which : ThermalWord) (data : Word), ∃ t : State, exec (.thermalReading i which data) s = .next t ∧
      (let reading := fun lo : Nat => if getField data lo 16 = 0x8000 then 0x8000
        else bits16 (min 150 (max (-40) (signed16 (getField data lo 16))))
      WroteWord s t (0x200 + i.val * 64 + thermalIndex which) (putField 0 (reading 0) ||| putField 16 (reading 16))) ∧
      StoreOpenAt t i (thermalIndex which + 1) ∧ t.pmp = s.pmp ∧ ∀ j : Slot, j ≠ i → t.links[j] = s.links[j]) ∧
    (∀ data : Word, ∃ t : State, exec (.commit i data) s = .next t ∧
      WroteWord s t (0x20F + i.val * 64) (mergeBits 0xFF#32 (s.image (0x20F + i.val * 64)) data) ∧
      StoreOpenAt t i 16 ∧ t.pmp = s.pmp ∧ ∀ j : Slot, j ≠ i → t.links[j] = s.links[j]) ∧
    (∀ (k : Fin 64) (data : Word), ∃ t : State, exec (.fruAreaWrite i k data) s = .next t ∧
      WroteWord s t (0x600 + i.val * 64 + k.val) data ∧ StoreOpenAt t i (0x41 + k.val) ∧ t.pmp = s.pmp ∧
      ∀ j : Slot, j ≠ i → t.links[j] = s.links[j]) ∧
    (∀ (offset : BitVec 16) (data : Word), windowOff i offset.toNat = none →
      ∃ t : State, exec (.plainWrite (.link i offset data)) s = .next t ∧ t.mem = s.mem ∧
        StoreOpenAt t i ((offset.toNat + 1) % 1024) ∧ t.pmp = s.pmp ∧ ∀ j : Slot, j ≠ i → t.links[j] = s.links[j])

/-! ## The processor's writes (sections 1.4–1.10) -/

/-- R11, R99, R109, R105, R144: a range setting is stored at the nearer limit of its range, no other DRAM word changes, its block takes
the value as stored, and of what the event leaves alone nothing else changes.
R11, R135, R136, R144: the curve settings and the critical temperature of a zone: duties at most 100 %, temperatures as 16-bit two's
complement in −40 to 150 °C.
R11, R12, R41, R44, R63, R117, R138, R149, R154, R159, R169: the settings that have no row of their own and are written by
PLAIN_WRITE: the adopt allowance (which no block copies), the slot timeouts, T_up and T_down, the reduce timeout, the clock load words,
the slew and the minimum rpm of a zone, failback, the settle time and the link debounces.
Margin, base load and default standby allowance are taken while nothing of the PSM's available power, or of the PAL, waits (R38,
notes/assumptions/13.md). -/
def Obligations.RangeSettingsAreStoredInRange : Prop :=
  (∀ (data : Word) (s : State), memWf s.mem = true → FreePort s →
      (s.acts .available → ∃ t : State, exec (.margin data) s = .next t ∧
        let v := min 1000 (getField data 0 16)
        TookWrite (.margin data) s t 0x05 data (putField 0 v) fun s => s.updPsm fun p => { p with margin := v }) ∧
      (s.acts .pal → ∃ t : State, exec (.baseLoad data) s = .next t ∧
        let v := min 500 (getField data 0 16)
        TookWrite (.baseLoad data) s t 0x06 data (putField 0 v) fun s => s.updPal fun p => { p with baseLoad := v }) ∧
      (s.acts .pal → ∃ t : State, exec (.defaultStandbyAllowance data) s = .next t ∧
        let v := min 100 (max 5 (getField data 0 8))
        TookWrite (.defaultStandbyAllowance data) s t 0x07 data (putField 0 v) fun s => s.updPal fun p => { p with defaultAllowance := v }) ∧
      (∀ z : Zone, ∃ t : State, exec (.floorDuty z data) s = .next t ∧
        let v := min 100 (getField data 0 8)
        TookWrite (.floorDuty z data) s t (0xC0 + z.val * 8) data (putField 0 v) fun s => s.updZone z fun x => { x with floorDuty := v }) ∧
      (∀ z : Zone, ∃ t : State, exec (.fanWattsAtFullDuty z data) s = .next t ∧
        let v := min 200 (getField data 0 8)
        TookWrite (.fanWattsAtFullDuty z data) s t (0xC1 + z.val * 8) data (putField 0 v) fun s => s.updZone z fun x => { x with fanWatts := v }) ∧
      (∃ t : State, exec (.moduleFloorDuty data) s = .next t ∧
        let v := min 100 (getField data 0 8)
        TookWrite (.moduleFloorDuty data) s t 0xE4 data (putField 0 v) fun s => { s with clc := { s.clc with moduleFloor := v } })) ∧
  (∀ (z : Zone) (data : Word) (s : State), memWf s.mem = true → FreePort s →
      let temp := fun lo => clampTemp (signed16 (getField data lo 16))
      (∃ t : State, exec (.zoneCurveSetting z .tLowHigh data) s = .next t ∧
        TookWrite (.zoneCurveSetting z .tLowHigh data) s t (0xC2 + z.val * 8) data (putField 0 (bits16 (temp 0)) ||| putField 16 (bits16 (temp 16)))
          fun s => s.updZone z fun x => { x with tLow := temp 0, tHigh := temp 16 }) ∧
      (∃ t : State, exec (.zoneCurveSetting z .dMin data) s = .next t ∧
        TookWrite (.zoneCurveSetting z .dMin data) s t (0xC3 + z.val * 8) data (putField 0 (min 100 (getField data 0 8)))
          fun s => s.updZone z fun x => { x with dMin := min 100 (getField data 0 8) }) ∧
      (∃ t : State, exec (.zoneCurveSetting z .dMax data) s = .next t ∧
        TookWrite (.zoneCurveSetting z .dMax data) s t (0xC4 + z.val * 8) data (putField 0 (min 100 (getField data 0 8)))
          fun s => s.updZone z fun x => { x with dMax := min 100 (getField data 0 8) }) ∧
      (∃ t : State, exec (.tCrit z data) s = .next t ∧
        TookWrite (.tCrit z data) s t (0xC5 + z.val * 8) data (putField 0 (bits16 (temp 0)))
          fun s => s.updZone z fun x => { x with tCrit := temp 0 })) ∧
  ∀ (data : Word) (s : State), memWf s.mem = true → FreePort s →
      let byte := fun lo hi => min hi (max lo (getField data 0 8))
      let nibble := fun hi => min hi (max 1 (getField data 0 4))
      let takes := fun (off : Nat) (w : Word) (f : State → State) =>
        let c : Instr := .plainWrite (.processor (.write (imageAddress off) data))
        ∃ t : State, exec c s = .next t ∧ TookWrite c s t off data w f
      takes 0x08 (putField 0 (min 2000 (getField data 0 16))) id ∧
      takes 0x09 (putField 0 (byte 1 255)) (fun s => s.updSsq fun q => { q with presenceDebounce := byte 1 255 }) ∧
      takes 0x0A (putField 0 (byte 1 255)) (fun s => s.updSsq fun q => { q with standbyTimeout := byte 1 255 }) ∧
      takes 0x0B (putField 0 (byte 1 255)) (fun s => s.updSsq fun q => { q with mainTimeout := byte 1 255 }) ∧
      takes 0x0C (putField 0 (byte 1 255)) (fun s => s.updSsq fun q => { q with identityTimeout := byte 1 255 }) ∧
      takes 0x0D (putField 0 (nibble 15)) (fun s => s.updSsq fun q => { q with tUp := nibble 15 }) ∧
      takes 0x0E (putField 0 (nibble 15)) (fun s => s.updSsq fun q => { q with tDown := nibble 15 }) ∧
      takes 0x0F (putField 0 (byte 1 255)) (fun s => s.updPal fun p => { p with reduceTimeout := byte 1 255 }) ∧
      takes 0x10 (putField 0 (getField data 0 16))
        (fun s => s.updMeu fun m => { m with load := { m.load with days := getField data 0 16 } }) ∧
      takes 0x11
        (putField 0 (min 23 (getField data 0 5)) ||| putField 8 (min 59 (getField data 8 6)) ||| putField 16 (min 59 (getField data 16 6)))
        (fun s => s.updMeu fun m =>
          { m with load := { m.load with
              hours := min 23 (getField data 0 5), minutes := min 59 (getField data 8 6), seconds := min 59 (getField data 16 6) } }) ∧
      (∀ z : Zone,
        takes (0xC6 + z.val * 8) (putField 0 (nibble 10)) (fun s => s.updZone z fun x => { x with slew := nibble 10 }) ∧
        takes (0xC7 + z.val * 8) (putField 0 (min 7650 (getField data 0 13)))
          (fun s => s.updZone z fun x => { x with minRpm := min 7650 (getField data 0 13) })) ∧
      (let code := if getField data 0 8 < 2 then getField data 0 8 else getField (s.image 0xE0) 0 8
      takes 0xE0 (putField 0 code) (fun s => s.updUlc fun u => { u with failback := code == 1 })) ∧
      takes 0xE1 (putField 0 (byte 1 255)) (fun s => s.updUlc fun u => { u with settleTime := byte 1 255 }) ∧
      takes 0xE2 (putField 0 (byte 10 255)) (fun s => s.updUlc fun u => { u with upDebounce := byte 10 255 }) ∧
      takes 0xE3 (putField 0 (byte 1 25)) (fun s => s.updUlc fun u => { u with downDebounce := byte 1 25 })

/-- R12, R99, R106, R64, R165: a code setting keeps the stored code where the code written is not defined, and its block takes the code as
stored; where the code stored and the one written are both undefined the word keeps what it held.
R47, R64, R66, R126, R172: the flag settings. ENABLE is bit 0 of word 0 of the slot's settings, the activity count bits 0–4 of word 3,
LOCATE and FORCED_THROTTLE bits 0 and 8 of the one word 5, the group enables bits 0–7 of word 0x0013.
Each is taken while nothing of the block that keeps it waits: of the slot, available power, the PAL, the mode, the flags and enables (R38,
notes/assumptions/13.md).
A code that is undefined in the DRAM too is no code of the block's: the copy then stands at the default code. -/
def Obligations.CodeAndFlagSettingsAreTaken : Prop :=
  (∀ (data : Word) (s : State), memWf s.mem = true → FreePort s →
      let code := fun (off n : Nat) => if getField data 0 8 < n then getField data 0 8 else getField (s.image off) 0 8
      (s.acts (.word 0x100) → ∃ t : State, exec (.modeRequest data) s = .next t ∧
        TookWrite (.modeRequest data) s t 0x02 data (putField 0 (code 0x02 3)) fun s => s.updMeu fun m => { m with requested := modeOf (code 0x02 3) }) ∧
      (s.acts .available → ∃ t : State, exec (.redundancyPolicy data) s = .next t ∧
        TookWrite (.redundancyPolicy data) s t 0x04 data (putField 0 (code 0x04 3)) fun s => s.updPsm fun p => { p with policy := policyOf (code 0x04 3) }) ∧
      ∀ i : Slot,
        (s.acts .pal → ∃ t : State, exec (.powerClass i data) s = .next t ∧
          let off := 0x41 + i.val * 8
          TookWrite (.powerClass i data) s t off data (putField 0 (code off 3)) fun s =>
            s.updAlloc i fun a => { a with cls := if code off 3 < 3 then code off 3 else 1 }) ∧
        (s.acts .pal → ∃ t : State, exec (.activityAction i data) s = .next t ∧
          let off := 0x44 + i.val * 8
          TookWrite (.activityAction i data) s t off data (putField 0 (code off 2)) fun s =>
            (s.updSlot i fun q => { q with reclaim := code off 2 == 1 }).updAlloc i fun a => { a with reclaim := code off 2 == 1 })) ∧
  (∀ (data : Word) (s : State), memWf s.mem = true → FreePort s →
      (s.acts (.word 0x1D1) → ∃ t : State, exec (.eventGroupEnables data) s = .next t ∧
        TookWrite (.eventGroupEnables data) s t 0x13 data (data &&& 0xFF#32) fun s => s.updMeu fun m => { m with enables := data.setWidth 8 }) ∧
      ∀ i : Slot,
        (s.acts (.slot i) → ∃ t : State, exec (.enable i data) s = .next t ∧
          TookWrite (.enable i data) s t (0x40 + i.val * 8) data (data &&& 1#32) fun s =>
            s.updSlot i fun q => { q with enabled := data.getLsbD 0 }) ∧
        (s.acts (.slot i) → ∃ t : State, exec (.activityCount i data) s = .next t ∧
          TookWrite (.activityCount i data) s t (0x43 + i.val * 8) data (data &&& 0x1F#32) fun s =>
            s.updSlot i fun q => { q with activityCount := getField data 0 5 }) ∧
        (s.acts (.slot i) → s.acts .pal → ∀ c : Instr, c = .locate i data ∨ c = .forcedThrottle i data → ∃ t : State, exec c s = .next t ∧
          TookWrite c s t (0x45 + i.val * 8) data (data &&& 0x101#32) fun s =>
            (s.updSlot i fun q => { q with locate := data.getLsbD 0 }).updAlloc i fun a => { a with forced := data.getLsbD 8 }))

/-- R13: a written preference list is stored cut at its first entry that is NONE, above 4 or a repeat; the rest is NONE. A list whose
first entry is NONE is stored empty, and a slot with an empty list is never placed. -/
def Obligations.PreferenceListIsCutAtItsFirstBadEntry : Prop :=
  (∀ (i : Slot) (data : Word) (s : State), memWf s.mem = true → FreePort s →
    ∃ t : State, exec (.uplinkPreferenceList i data) s = .next t ∧
      TookWrite (.uplinkPreferenceList i data) s t (0x42 + i.val * 8) data (prefsWord (cutPrefs [] (prefEntries data))) fun s =>
        s.updPlacement i fun p => { p with prefs := prefBays (prefsWord (cutPrefs [] (prefEntries data))) }) ∧
  (∀ l : List Nat, (cutPrefs [] l).Nodup ∧ (∀ e ∈ cutPrefs [] l, 1 ≤ e ∧ e ≤ 4) ∧
    ∃ rest, l = cutPrefs [] l ++ rest ∧ ∀ e, rest.head? = some e → e = 0 ∨ 4 < e ∨ e ∈ cutPrefs [] l) ∧
  (∀ l : List Nat, l.head? = some 0 → cutPrefs [] l = []) ∧
  (∀ (i : Slot) (s : State), s.ulc.slots[i].prefs = [] → place i s = s ∧ placeOrPark i none s = s ∧
    s.ulc.choose i = none ∧ ∀ b : UplinkBay, s.ulc.slots[i].prefersFirst b = false) ∧
  cutPrefs [] [2, 4, 2, 1] = [2, 4] ∧ cutPrefs [] [3, 7, 1, 2] = [3]

/-- R171: a head write is taken modulo 64 and stored as written where it does not pass the tail, else as the tail; the MEU takes it as
stored, and neither the records nor the overflow count change. -/
def Obligations.RingHeadNeverPassesTheTail : Prop :=
  ∀ (data : Word) (s : State), memWf s.mem = true → FreePort s → getField (s.image 0x14) 0 16 < 64 → s.meu.tail < 64 →
    Rested s →
    ∃ t : State, exec (.eventRingHead data) s = .next t ∧
      let h0 := getField (s.image 0x14) 0 16
      let h := getField data 0 16 % 64
      let kept := if (h + 64 - h0) % 64 ≤ (s.meu.tail + 64 - h0) % 64 then h else s.meu.tail
      TookWrite (.eventRingHead data) s t 0x14 data (putField 0 kept) (fun s => s.updMeu fun m => { m with head := kept }) ∧
      t.meu.records = s.meu.records ∧ t.meu.overflow = s.meu.overflow ∧ t.meu.writePos = s.meu.writePos ∧
      ∀ (c : Cause) (x : Subject) (w : Word), (s.meu.writePos + 1) % 64 ≠ kept →
        (raise c x w t).meu.records = s.meu.records ++ [c.group]

/-- R15, R17, R172: a write of the group-flags word clears each flag written as 0 and keeps the others, and the MEU takes the flags as
stored, while nothing of flags and enables waits (R38, notes/assumptions/13.md); ATTN_N and the summary code follow. A write of the marker
word, of any value, stores 0, and nothing more happens.
R172: ATTN_N is asserted exactly while a group has its enable and its flag set, and the summary code is the number of the first such
group, or 0. -/
def Obligations.FlagsMarkerAndSummaryCode : Prop :=
  (∀ (data : Word) (s : State), memWf s.mem = true → FreePort s →
      (s.acts (.word 0x1D1) → ∃ t : State, exec (.groupFlagsClear data) s = .next t ∧
        let w := s.image 0x1D0 &&& data &&& 0xFF#32
        TookWrite (.groupFlagsClear data) s t 0x1D0 data w (fun s => s.updMeu fun m => { m with flags := w.setWidth 8 }) ∧
        (Fits s (effect (.groupFlagsClear data) s) →
          t.outs.attn = (w.setWidth 8 &&& s.meu.enables != 0#8) ∧ t.meu.summaryCode = summaryCodeOf (w.setWidth 8) s.meu.enables)) ∧
      ∃ t : State, exec (.imageMarkerWrite data) s = .next t ∧ TookWrite (.imageMarkerWrite data) s t 0 data 0#32 id ∧ t.formatLatch = s.formatLatch) ∧
  (∀ flags enables : BitVec 8,
      (attention flags enables = true ↔ ∃ g : Fin 8, flags.getLsbD g.val = true ∧ enables.getLsbD g.val = true) ∧
      (attention flags enables = false → summaryCodeOf flags enables = 0) ∧
      ∀ g : Fin 8, summaryCodeOf flags enables = g.val + 1 ↔
        (flags.getLsbD g.val = true ∧ enables.getLsbD g.val = true) ∧
          ∀ h : Fin 8, h < g → ¬(flags.getLsbD h.val = true ∧ enables.getLsbD h.val = true))

/-- R10, R169, R32, R58: a command word always stores 0. The abort command acts on every write, any other only where bit 0 is written as 1:
the clock takes the load copies at a full second, the link's count goes to 0 and its state to NORMAL, and a slot in FAULT forgets
its reason. A write with bit 0 clear stores the 0 and does nothing more. (What the supply and the uplink clear do is in CommandNoticesAct;
a slot, a link or a clock of which something waits takes its command later, R38, notes/assumptions/13.md.)
R32, R169: a link clear publishes the count and the state even where neither changes, and a clock load publishes the days and the time. -/
def Obligations.CommandWordsStoreZero : Prop :=
  (∀ (data : Word) (s : State), memWf s.mem = true → FreePort s →
    let when := fun (f : State → State) (s : State) => if data.getLsbD 0 then f s else s
    (∃ t : State, exec (.abort data) s = .next t ∧ TookWrite (.abort data) s t 0x03 data 0#32 id) ∧
    (s.acts (.word 0x104) → ∃ t : State, exec (.clockLoad data) s = .next t ∧ TookWrite (.clockLoad data) s t 0x12 data 0#32
      (when fun s => s.updMeu fun m => { m with sub := 0, clock := m.load })) ∧
    (∀ i : Slot, s.acts (.slot i) →
      ∃ t : State, exec (.faultClear i data) s = .next t ∧ TookWrite (.faultClear i data) s t (0x46 + i.val * 8) data 0#32
        (when fun s => if s.ssq.slots[i].state = .fault then s.updSlot i fun q => { q with reason := .none } else s)) ∧
    (∀ i : Slot, s.acts (.link i) → ∃ t : State, exec (.linkClear i data) s = .next t ∧ TookWrite (.linkClear i data) s t (0x47 + i.val * 8) data 0#32
      (when fun s => (s.updLink i fun l => { l with lec := 0, state := .normal }).updSlot i fun q =>
        { q with linkState := .normal })) ∧
    (∀ b : PsuBay, ∃ t : State, exec (.psuClear b data) s = .next t ∧ TookWrite (.psuClear b data) s t (0xE5 + b.val) data 0#32 id) ∧
    (∀ b : UplinkBay, ∃ t : State, exec (.uplinkClear b data) s = .next t ∧ TookWrite (.uplinkClear b data) s t (0xEB + b.val) data 0#32 id) ∧
    (data.getLsbD 0 = false →
      let only := fun (c : Instr) (off : Nat) => EndsIn c s s (s.served off data 0#32)
      only (.clockLoad data) 0x12 ∧ (∀ i : Slot, only (.faultClear i data) (0x46 + i.val * 8) ∧ only (.linkClear i data) (0x47 + i.val * 8)) ∧
        (∀ b : PsuBay, only (.psuClear b data) (0xE5 + b.val)) ∧ ∀ b : UplinkBay, only (.uplinkClear b data) (0xEB + b.val))) ∧
  ∀ (data : Word) (s : State), memWf s.mem = true → FreePort s → Rested s → s.wra.waiting = [] → s.held = [] → data.getLsbD 0 = true →
    (∀ i : Slot, Fits s (effect (.linkClear i data) s) → ∃ t : State, exec (.linkClear i data) s = .next t ∧
      { off := 0x212 + i.val * 64, kind := .whole 0#32 } ∈ t.wra.queue ∧
      { off := 0x210 + i.val * 64, kind := .fields 0x30000000#32 0#32 } ∈ t.wra.queue) ∧
    (Fits s (effect (.clockLoad data) s) → ∃ t : State, exec (.clockLoad data) s = .next t ∧
      { off := 0x103, kind := .whole (putField 0 s.meu.load.days) } ∈ t.wra.queue ∧
      { off := 0x104
        kind := .whole (putField 0 s.meu.load.hours ||| putField 8 s.meu.load.minutes ||| putField 16 s.meu.load.seconds) } ∈ t.wra.queue)

/-- R61, R58, R97, R151: what the command notices do, each with its own effect `u` of the event: the abort command reaches every slot and the
PAL, a slot in FAULT enters DETECTING with its debounce, and a supply and an uplink act by their state: an EMPTY, IDENTIFYING or
REJECTED one disregards the clear, a FAULTED or RETIRED supply starts again (a standing ALERT counting at once, R93), a FAULT uplink is
OFF, a HELD one UP with UPLINK_UP raised (R152), and any other keeps its state with its counts cleared. Of a supply's clear only the events
of the redundancy need (R100) may follow. A slot or a supply of which something waits acts later (R38,
notes/assumptions/13.md).
R61: the abort command at each slot, by its state: a slot in ADMIT_WAIT returns to READY under the abort hold, MAIN_UP goes down, RUN
detaches, DETACH and MAIN_DOWN take the abort as their down cause, and a slot in any other state is left as it is.
R47: the notice of ENABLE. ENABLED takes a HELD slot to STANDBY_UP; DISABLED takes a slot under standby power to STANDBY_DOWN, and one with
main power down with the cause DISABLE; the value that stands already does nothing.
R48, R50, R52, R53: the notice of the request. It clears both holds; a READY slot that meets R49 enters ADMIT_WAIT; a request of 0 takes
ADMIT_WAIT back to READY, MAIN_UP to MAIN_DOWN and RUN to DETACH; any other slot stays where it is.
R50, R62, R54, R46, R60: what is handed to a slot. An admission takes ADMIT_WAIT to MAIN_UP; a shed takes RUN to DETACH and MAIN_UP to
MAIN_DOWN, and is the down cause of one on its way down; detach done takes DETACH to MAIN_DOWN; a VALID verdict takes IDENTIFYING to
READY; each does nothing in another state, but that a verdict is kept. QUIESCE takes ADMIT_WAIT to READY, MAIN_UP to MAIN_DOWN and
RUN to DETACH, and as it ends each READY slot is examined; no other change of mode moves a slot. -/
def Obligations.CommandNoticesAct : Prop :=
  (∀ (data : Word) (s : State), FreePort s →
      (∃ u : State, EndsIn (.abort data) s s u ∧ u.agenda = s.agenda ++ [.ssqAbort, .palAbort]) ∧
      (data.getLsbD 0 = true → ∀ i : Slot, s.ssq.slots[i].state = .fault → s.acts (.slot i) →
        ∃ u : State, EndsIn (.faultClear i data) s s u ∧ u.ssq.slots[i].state = .detecting ∧
          u.ssq.slots[i].reason = .none ∧ u.ssq.slots[i].debounce = some (s.ssq.presenceDebounce * 10) ∧
          ∀ j : Slot, j ≠ i → u.ssq.slots[j] = s.ssq.slots[j]) ∧
      (data.getLsbD 0 = true → ∀ b : PsuBay, s.acts (.psu b) →
        let p := s.psm.bays[b]
        ∃ u : State, EndsIn (.psuClear b data) s s u ∧ (∀ c : PsuBay, c ≠ b → u.psm.bays[c] = s.psm.bays[c]) ∧
          RaisedThen [] [.redundancyLost, .redundancyMet] s u ∧
          (p.state ∈ [.empty, .identifying, .rejected] → u.psm = s.psm ∧ NotRaised s u) ∧
          (let r := u.psm.bays[b];
            p.state ∈ [.starting, .online, .faulted, .retired] → r.band = .healthy ∧ r.reason = .none ∧
              (p.state = .starting → r.faults = 0 ∧ r.state = .starting ∧ r.start = p.start ∧ r.capacity = 0) ∧
              (p.state = .online → r.faults = 0 ∧ r.state = .online ∧ r.capacity = p.rated ∧
                r.decay = if p.alert then none else some 60000) ∧
              (p.state = .faulted ∨ p.state = .retired → r.faults = (if p.alert then 8 else 0) ∧ r.state = .starting ∧
                r.start = some 2000 ∧ r.restart = none ∧ r.capacity = 0))) ∧
      (data.getLsbD 0 = true → ∀ b : UplinkBay,
        let p := s.ulc.bays[b]
        ∃ u : State, EndsIn (.uplinkClear b data) s s u ∧
          (∀ c : UplinkBay, c ≠ b → u.ulc.bays[c] = { s.ulc.bays[c] with members := u.ulc.bays[c].members }) ∧
          (p.state ∈ [.empty, .identifying, .rejected] → u.ulc = s.ulc ∧ NotRaised s u) ∧
          (p.state ∈ [.off, .powering, .linkDown, .up] → NotRaised s u ∧
            u.ulc = { s.ulc with bays := s.ulc.bays.set b { p with flap := 0, held := false } }) ∧
          (p.state = .held → u.ulc.bays[b].state = .up ∧ u.ulc.bays[b].flap = 0 ∧ u.ulc.bays[b].held = false ∧
            Raised .uplinkUp (.uplink b) (putField 8 1) s u) ∧
          (p.state = .fault → u.ulc.bays[b].state = .off ∧ u.ulc.bays[b].flap = 0 ∧ u.ulc.bays[b].held = false ∧
            u.ulc.bays[b].reason = .none ∧ NotRaised s u))) ∧
  (∀ (i : Slot) (s : State), s.acts (.slot i) →
      (s.ssq.slots[i].state = .admitWait →
        (takeSlotAbort s).ssq.slots[i].state = .ready ∧ (takeSlotAbort s).ssq.slots[i].abortHold = true) ∧
      (s.ssq.slots[i].state = .mainUp →
        (takeSlotAbort s).ssq.slots[i].state = .mainDown ∧ (takeSlotAbort s).ssq.slots[i].downCause = some .abort) ∧
      (s.ssq.slots[i].state = .run →
        (takeSlotAbort s).ssq.slots[i].state = .detach ∧ (takeSlotAbort s).ssq.slots[i].downCause = some .abort) ∧
      (s.ssq.slots[i].state = .detach ∨ s.ssq.slots[i].state = .mainDown →
        (takeSlotAbort s).ssq.slots[i].state = s.ssq.slots[i].state ∧
          (takeSlotAbort s).ssq.slots[i].downCause = some .abort) ∧
      (s.ssq.slots[i].state ∈ [.empty, .detecting, .held, .standbyUp, .identifying, .ready, .standbyDown, .fault] →
        (takeSlotAbort s).ssq.slots[i] = s.ssq.slots[i])) ∧
  (∀ (i : Slot) (s : State), let q := s.ssq.slots[i]
      takeEnable i q.enabled s = s ∧
      (q.enabled = false → let r := (takeEnable i true s).ssq.slots[i]
        r.enabled = true ∧ (q.state = .held → r.state = .standbyUp ∧
            r.seq = some { wait := .standbyTimeout, left := s.ssq.standbyTimeout * 10 }) ∧ (q.state ≠ .held → r.state = q.state)) ∧
      (q.enabled = true → let r := (takeEnable i false s).ssq.slots[i]
        r.enabled = false ∧
        (q.state ∈ [.standbyUp, .identifying, .ready, .admitWait] → r.state = .standbyDown ∧ r.abortHold = false ∧ r.shedHold = false ∧
          r.seq = some { wait := .standbyDown, left := s.ssq.tDown * 20 }) ∧
        (q.state = .mainUp → r.state = .mainDown ∧ r.downCause = some .disable) ∧
        (q.state = .run → r.state = .detach ∧ r.downCause = some .disable) ∧
        (q.state ∈ [.empty, .detecting, .held, .detach, .mainDown, .standbyDown, .fault] → r.state = q.state)) ∧
      ∀ (on : Bool) (j : Slot), j ≠ i → (takeEnable i on s).ssq.slots[j] = s.ssq.slots[j]) ∧
  (∀ (i : Slot) (w : Nat) (s : State), let q := s.ssq.slots[i]; let r := (takeSlotRequest i w s).ssq.slots[i]
      r.request = w ∧ r.abortHold = false ∧ r.shedHold = false ∧
      (q.state = .ready → r.state =
        (if w ≠ 0 ∧ q.enabled = true ∧ s.meu.actual ≠ .quiesce ∧ q.linkState = .normal then .admitWait else .ready)) ∧
      (w = 0 → (q.state = .admitWait → r.state = .ready) ∧ (q.state = .mainUp → r.state = .mainDown ∧ r.downCause = some .request) ∧
        (q.state = .run → r.state = .detach ∧ r.downCause = some .request)) ∧
      (q.state ≠ .ready → (w ≠ 0 ∨ q.state ∉ [.admitWait, .mainUp, .run]) → r.state = q.state) ∧
      ∀ j : Slot, j ≠ i → (takeSlotRequest i w s).ssq.slots[j] = s.ssq.slots[j]) ∧
  (∀ (i : Slot) (data : Word) (s : State), s.acts (.slot i) →
    (FreePort s → ∃ u : State, EndsIn (.enable i data) s s u ∧ u.ssq = (takeEnable i (data.getLsbD 0) s).ssq) ∧
    (FreeLink s i → ∃ u : State, EndsIn (.request i data) s s u ∧
      u.ssq = (takeSlotRequest i (min 2000 (getField data 0 16)) s).ssq)) ∧
  ((∀ (i : Slot) (valid : Bool) (old new : Mode) (s : State), s.acts (.slot i) →
      handle (.ssqAdmit i) s = takeAdmission i s ∧ handle (.ssqShed i) s = takeShed i s ∧
      handle (.ssqDetachDone i) s = takeDetachDone i s ∧ handle (.ssqVerdict i valid) s = takeSlotVerdict i valid s ∧
      handle (.ssqMode old new) s = takeSlotMode old new s ∧
      (takeSlotMode old new s).ssq.slots[i] = (takeModeAt i old new s).ssq.slots[i]) ∧
    ∀ (i : Slot) (s : State), let q := s.ssq.slots[i]
      let waits := fun abort shed : Bool => if q.request ≠ 0 ∧ q.enabled = true ∧ s.meu.actual ≠ .quiesce ∧ abort = false ∧
        shed = false ∧ q.linkState = .normal then SlotState.admitWait else .ready
      (if q.state = .admitWait then
        (let r := (takeAdmission i s).ssq.slots[i];
          r.state = .mainUp ∧ r.seq = some { wait := .mainTimeout, left := s.ssq.mainTimeout * 10 } ∧ r.downCause = q.downCause)
        else takeAdmission i s = s) ∧
      (let r := (takeShed i s).ssq.slots[i];
        (q.state = .run → r.state = .detach ∧ r.downCause = some .shed) ∧ (q.state = .mainUp → r.state = .mainDown ∧ r.downCause = some .shed) ∧
        (q.state = .detach ∨ q.state = .mainDown → takeShed i s = s.updSlot i fun q => { q with downCause := some .shed }) ∧
        (q.state ∉ [.run, .mainUp, .detach, .mainDown] → takeShed i s = s)) ∧
      (if q.state = .detach then
        (let r := (takeDetachDone i s).ssq.slots[i];
          r.state = .mainDown ∧ r.seq = some { wait := .mainDown, left := s.ssq.tDown * 20 } ∧ r.downCause = q.downCause)
        else takeDetachDone i s = s) ∧
      (∀ valid : Bool, let r := (takeSlotVerdict i valid s).ssq.slots[i];
        r.verdict = (if valid then .valid else .rejected) ∧
        r.state = (if valid = true ∧ q.state = .identifying then
          waits (q.abortHold || q.downCause == some .abort) (q.shedHold || q.downCause == some .shed) else q.state)) ∧
      (∀ old new : Mode, s.meu.actual = new → let r := (takeModeAt i old new s).ssq.slots[i];
        (new = .quiesce → (q.state = .admitWait → r.state = .ready) ∧
          (q.state = .mainUp → r.state = .mainDown ∧ r.downCause = some .quiesce) ∧
          (q.state = .run → r.state = .detach ∧ r.downCause = some .quiesce) ∧
          (q.state ∉ [.admitWait, .mainUp, .run] → takeModeAt i old new s = s)) ∧
        (new ≠ .quiesce → old = .quiesce → r.state = (if q.state = .ready then waits q.abortHold q.shedHold else q.state)) ∧
        (new ≠ .quiesce → old ≠ .quiesce → takeModeAt i old new s = s)) ∧
      ∀ (valid : Bool) (old new : Mode) (j : Slot), j ≠ i → (takeAdmission i s).ssq.slots[j] = s.ssq.slots[j] ∧
        (takeShed i s).ssq.slots[j] = s.ssq.slots[j] ∧ (takeDetachDone i s).ssq.slots[j] = s.ssq.slots[j] ∧
        (takeSlotVerdict i valid s).ssq.slots[j] = s.ssq.slots[j] ∧ (takeModeAt i old new s).ssq.slots[j] = s.ssq.slots[j])

/-- R165: the actual mode after a mode request. With no change pending the part leaves CONFIGURE and QUIESCE at once, and OPERATE for
QUIESCE at once; OPERATE to CONFIGURE waits, marked as pending, while a slot is in MAIN_UP or a module in POWERING; a pending change
is withdrawn by a request for OPERATE, and by one for QUIESCE, which is taken at once; a request for CONFIGURE leaves it pending, and
one for the mode that stands does nothing more.
MODE_REQUEST takes the code as it is stored, a code held under R12 included, and acts so, while nothing of the mode waits (R38,
notes/assumptions/13.md). Each change of the actual mode is handed to
the SSQ, the PAL and the ULC and raises MODE_CHANGED with the new and the old code; each change of the marker is handed to the PAL. -/
def Obligations.ModeRequestsChangeTheMode : Prop :=
  (∀ (data : Word) (s : State), FreePort s → s.acts (.word 0x100) →
    let code := if getField data 0 8 < 3 then getField data 0 8 else getField (s.image 0x02) 0 8
    let m : Mode := if code = 1 then .operate else if code = 2 then .quiesce else .configure
    let old := s.meu.actual
    let waits := old = .operate ∧ m = .configure ∧ (s.meu.changePending = true ∨ s.meu.mainUpCount ≠ 0 ∨ s.meu.poweringCount ≠ 0)
    ∃ u : State, EndsIn (.modeRequest data) s s u ∧ u.meu.requested = m ∧
      u.meu.actual = (if old = .operate ∧ m = .configure ∧ (s.meu.changePending = true ∨ s.meu.mainUpCount ≠ 0 ∨ s.meu.poweringCount ≠ 0)
        then .operate else m) ∧
      (old = .operate → (u.meu.changePending = true ↔ waits)) ∧
      (∃ v : State, v.agenda = s.agenda ++
          (if old = .operate ∧ u.meu.changePending ≠ s.meu.changePending then [.palMode .operate u.meu.changePending] else []) ++
          (if u.meu.actual = old then [] else [.ssqMode old m, .palMode m u.meu.changePending, .ulcMode m]) ∧ v.meu.writePos = s.meu.writePos ∧
        v.meu.head = s.meu.head ∧ v.wra = s.wra ∧ v.held = s.held ∧ v.later = s.later ∧ u.agenda = v.agenda ∧
        (u.meu.actual = old → NotRaised v u) ∧
        (u.meu.actual ≠ old → Raised .modeChanged .chassis (putField 0 (if m = .configure then 0 else if m = .operate then 1 else 2) |||
          putField 8 (if old = .configure then 0 else if old = .operate then 1 else 2)) v u))) ∧
  ∀ (m : Mode) (s : State),
    (takeModeRequest m s).meu.requested = m ∧
    (m = s.meu.actual → s.meu.changePending = false → takeModeRequest m s = s.updMeu fun x => { x with requested := m }) ∧
    (s.meu.actual = .operate → s.meu.changePending = true → m = .quiesce →
      (takeModeRequest m s).meu.actual = .quiesce ∧ (takeModeRequest m s).meu.changePending = false) ∧
    (s.meu.actual ≠ .operate → (takeModeRequest m s).meu.actual = m) ∧
    (s.meu.actual = .operate → s.meu.changePending = false → m = .quiesce → (takeModeRequest m s).meu.actual = .quiesce) ∧
    (s.meu.actual = .operate → s.meu.changePending = false → m = .configure →
      (if s.meu.mainUpCount = 0 ∧ s.meu.poweringCount = 0 then (takeModeRequest m s).meu.actual = .configure
        else (takeModeRequest m s).meu.actual = .operate ∧ (takeModeRequest m s).meu.changePending = true)) ∧
    (s.meu.actual = .operate → s.meu.changePending = true → m = .operate →
      (takeModeRequest m s).meu.actual = .operate ∧ (takeModeRequest m s).meu.changePending = false) ∧
    (s.meu.actual = .operate → s.meu.changePending = true → m = .configure → (takeModeRequest m s) =
      s.updMeu fun x => { x with requested := m })

/-! ## Slot sequencing (chapter 3) -/

/-- R41, R42, R47, R59, R22: a change of PRES or LATCH is a raw reading; it starts the presence debounce at its setting, and a slot in
EMPTY whose lines first read unlatched or seated enters DETECTING. When the debounce runs out, a blade found seated in DETECTING and
enabled goes to STANDBY_UP with the standby timeout running, one not enabled is HELD, and one unlatched waits with its arrival
reported; a latch found open takes a running slot down, cause EXTRACTION; and a slot found absent in any state but EMPTY and DETECTING
is removed: it becomes EMPTY, its link is cleared, and its words are offered their cleared values (R22): record words 0 to 14 and the 64 words
of the FRU area whole, the readings as ABSENT and the rest 0, and the commit field as 0 under its mask.
R42: a first arrival is reported with its time and SLOT_INSERTED, detail 2 for seated and 1 for unlatched; one that has been reported is not
reported again. A slot in DETECTING that is found absent is removed if its arrival was reported, and else becomes EMPTY with nothing else done.
R47: a latch found open takes a HELD slot back to DETECTING, one under standby power alone to STANDBY_DOWN, and one in MAIN_UP to
MAIN_DOWN, cause EXTRACTION. R59: a removal raises SLOT_REMOVED with the code of the state that the slot was in.
An expiry of a debounce that is not running does nothing (the model's reading of the row, notes/assumptions/10.md). A slot, an entry or a link
of which something waits takes its part later (R38, notes/assumptions/13.md). -/
def Obligations.RawReadingAndDebounceDecide : Prop :=
  (∀ (i : Slot) (pres latch : Bool) (s : State), Acting (.slot i) s → s.ssq.slots[i].raw ≠ readingOfLines pres latch →
    let p := s.updPins fun p => { p with pres := p.pres.set i pres, latch := p.latch.set i latch }
    ∃ u : State, EndsIn (.slotRawReadingChange i pres latch) s p u ∧ SlotEvent i p u ∧
      u.ssq.slots[i].raw = readingOfLines pres latch ∧ u.ssq.slots[i].debounce = some (s.ssq.presenceDebounce * 10) ∧
      u.ssq.slots[i].debounced = s.ssq.slots[i].debounced ∧
      u.ssq.slots[i].state =
        (if s.ssq.slots[i].state = .empty ∧ pres = true then .detecting else s.ssq.slots[i].state)) ∧
  (∀ (i : Slot) (s : State), Acting (.slot i) s → s.ssq.slots[i].debounce = none →
    EndsIn (.presenceDebounceExpiry i) s s s) ∧
  (∀ (i : Slot) (pres latch : Bool) (s : State), Acting (.slot i) s → s.ssq.slots[i].raw = readingOfLines pres latch →
    let p := s.updPins fun p => { p with pres := p.pres.set i pres, latch := p.latch.set i latch }
    EndsIn (.slotRawReadingChange i pres latch) s p p) ∧
  ∀ (i : Slot) (n : Nat) (s : State), Acting (.slot i) s → s.ssq.slots[i].debounce = some n →
    (s.ssq.slots[i].state = .detecting → s.ssq.slots[i].raw = .seated → s.ssq.slots[i].enabled = true →
      ∃ u : State, EndsIn (.presenceDebounceExpiry i) s s u ∧ SlotEvent i s u ∧
        u.ssq.slots[i].state = .standbyUp ∧ u.ssq.slots[i].arrived = true ∧ u.ssq.slots[i].debounced = .seated ∧
        u.ssq.slots[i].seq = some { wait := .standbyTimeout, left := s.ssq.standbyTimeout * 10 }) ∧
    (s.ssq.slots[i].state = .detecting → s.ssq.slots[i].raw = .seated → s.ssq.slots[i].enabled = false →
      ∃ u : State, EndsIn (.presenceDebounceExpiry i) s s u ∧ SlotEvent i s u ∧
        u.ssq.slots[i].state = .held ∧ u.ssq.slots[i].seq = none) ∧
    (s.ssq.slots[i].state = .detecting → s.ssq.slots[i].raw = .seated ∨ s.ssq.slots[i].raw = .unlatched →
      ∃ u : State, EndsIn (.presenceDebounceExpiry i) s s u ∧
        (if s.ssq.slots[i].arrived = true then NotRaised s u ∧ u.ssq.slots[i].inserted = s.ssq.slots[i].inserted
          else Raised .slotInserted (.slot i) (putField 0 (if s.ssq.slots[i].raw = .seated then 2 else 1)) s u ∧
            u.ssq.slots[i].inserted = s.now)) ∧
    (s.ssq.slots[i].state = .detecting → s.ssq.slots[i].raw = .absent ∨ s.ssq.slots[i].raw = .invalid → s.ssq.slots[i].arrived = false →
      ∃ u : State, EndsIn (.presenceDebounceExpiry i) s s u ∧ SlotEvent i s u ∧ u.ssq.slots[i].state = .empty ∧
        u.ssq.slots[i].debounce = none ∧ u.ssq.slots[i].arrived = false ∧ NotRaised s u ∧ u.ssq.slots[i].inserted = s.ssq.slots[i].inserted ∧
        ∀ st : SlotState, Msg.palState i st ∈ u.agenda → Msg.palState i st ∈ s.agenda) ∧
    (s.ssq.slots[i].state ∈ [.held, .standbyUp, .identifying, .ready, .admitWait, .mainUp] → s.ssq.slots[i].raw = .unlatched →
      s.ssq.slots[i].debounced = .seated →
      ∃ u : State, EndsIn (.presenceDebounceExpiry i) s s u ∧ SlotEvent i s u ∧ NotRaised s u ∧ u.ssq.slots[i].debounced = .unlatched ∧
        (s.ssq.slots[i].state = .held → u.ssq.slots[i].state = .detecting ∧
          u.ssq.slots[i].debounce = some (s.ssq.presenceDebounce * 10) ∧ u.ssq.slots[i].arrived = s.ssq.slots[i].arrived) ∧
        (s.ssq.slots[i].state ∈ [.standbyUp, .identifying, .ready, .admitWait] → u.ssq.slots[i].state = .standbyDown ∧
          u.ssq.slots[i].seq = some { wait := .standbyDown, left := s.ssq.tDown * 20 }) ∧
        (s.ssq.slots[i].state = .mainUp → u.ssq.slots[i].state = .mainDown ∧ u.ssq.slots[i].downCause = some .extraction ∧
          u.ssq.slots[i].seq = some { wait := .mainDown, left := s.ssq.tDown * 20 })) ∧
    (s.ssq.slots[i].state = .detecting → s.ssq.slots[i].raw = .unlatched →
      ∃ u : State, EndsIn (.presenceDebounceExpiry i) s s u ∧ SlotEvent i s u ∧
        u.ssq.slots[i].state = .detecting ∧ u.ssq.slots[i].arrived = true ∧ u.ssq.slots[i].debounce = none) ∧
    (s.ssq.slots[i].state = .run → s.ssq.slots[i].raw = .unlatched → s.ssq.slots[i].debounced = .seated →
      ∃ u : State, EndsIn (.presenceDebounceExpiry i) s s u ∧ SlotEvent i s u ∧
        u.ssq.slots[i].state = .detach ∧ u.ssq.slots[i].downCause = some .extraction) ∧
    ((s.ssq.slots[i].state = .detecting ∧ s.ssq.slots[i].arrived = true) ∨
        (s.ssq.slots[i].state ≠ .empty ∧ s.ssq.slots[i].state ≠ .detecting ∧ s.ssq.slots[i].debounced ≠ .absent) →
      s.ssq.slots[i].raw = .absent ∨ s.ssq.slots[i].raw = .invalid →
      ∃ u : State, EndsIn (.presenceDebounceExpiry i) s s u ∧ u.ssq.slots[i].state = .empty ∧
        u.ssq.slots[i].arrived = false ∧ u.ssq.slots[i].request = 0 ∧ u.ssq.slots[i].seq = none ∧
        (s.acts (.link i) → u.links[i].lec = 0 ∧ u.links[i].state = .normal) ∧ u.links[i].buffer = s.links[i].buffer ∧
        (s.acts (.entry (slotEntry i)) → u.inv.entries[slotEntry i].state = .empty) ∧ u.mem = s.mem ∧ u.pmp = s.pmp ∧
        u.pins = s.pins ∧ u.psm = s.psm ∧ (∀ j : Slot, j ≠ i → u.ssq.slots[j] = s.ssq.slots[j] ∧ u.links[j] = s.links[j]) ∧
        let cleared : List Update :=
          (List.range 15).map (fun k => { off := 0x200 + i.val * 64 + k, kind := .whole (if k = 2 ∨ k = 3 then 0x80008000#32 else 0#32) }) ++
          [{ off := 0x20F + i.val * 64, kind := .fields 0xFF#32 0#32 }] ++
          (List.range 64).map fun k => { off := 0x600 + i.val * 64 + k, kind := .whole 0#32 }
        Raised .slotRemoved (.slot i) (putField 0 s.ssq.slots[i].state.code)
          { s with wra := { s.wra with offered := s.wra.offered ++ cleared } } u)

/-- R45, R46, R51, R52, R53, R55, R56: a power-good that reads good while its timeout runs starts the step delay T_up, and otherwise is
only kept as read; and what a step delay or a power-down delay leads to when it runs out. A slot that comes to READY takes the hold of
its down cause, and goes on to ADMIT_WAIT where R49 allows it. (A slot that is held up acts later, notes/assumptions/13.md.) -/
def Obligations.PowerGoodsAndDelaysMoveTheSlotOn : Prop :=
  ∀ (i : Slot) (s : State), Acting (.slot i) s →
    let q := s.ssq.slots[i]
    let waitsOn := fun (abort shed : Bool) => q.request ≠ 0 ∧ q.enabled = true ∧ s.meu.actual ≠ .quiesce ∧ abort = false ∧
      shed = false ∧ q.linkState = .normal
    (∃ u : State, EndsIn (.sbyPgGood i) s (s.updPins fun p => { p with sbyPg := p.sbyPg.set i true }) u ∧
      SlotEvent i (s.updPins fun p => { p with sbyPg := p.sbyPg.set i true }) u ∧
      u.ssq.slots[i] = { q with
        sbyPg := true, seq := if q.waits .standbyTimeout then some { wait := .standbyStep, left := s.ssq.tUp * 10 } else q.seq }) ∧
    (∃ u : State, EndsIn (.mainPgGood i) s (s.updPins fun p => { p with mainPg := p.mainPg.set i true }) u ∧
      SlotEvent i (s.updPins fun p => { p with mainPg := p.mainPg.set i true }) u ∧
      u.ssq.slots[i] = { q with
        mainPg := true, seq := if q.waits .mainTimeout then some { wait := .mainStep, left := s.ssq.tUp * 10 } else q.seq }) ∧
    (q.waits .standbyStep = true → (s.bladeEntry i).state ≠ .valid →
      ∃ u : State, EndsIn (.standbyStepDelayExpiry i) s s u ∧ SlotEvent i s u ∧
        u.ssq.slots[i].state = .identifying ∧
        u.ssq.slots[i].seq = some { wait := .identity, left := s.ssq.identityTimeout * 1000 }) ∧
    (q.waits .standbyStep = true → (s.bladeEntry i).state = .valid →
      ∃ u : State, EndsIn (.standbyStepDelayExpiry i) s s u ∧ SlotEvent i s u ∧
        (waitsOn q.abortHold q.shedHold → u.ssq.slots[i].state = .admitWait) ∧
        (¬waitsOn q.abortHold q.shedHold → u.ssq.slots[i].state = .ready) ∧ u.ssq.slots[i].seq = none) ∧
    (q.waits .mainStep = true →
      ∃ u : State, EndsIn (.mainStepDelayExpiry i) s s u ∧ SlotEvent i s u ∧ u.ssq.slots[i].state = .run ∧
        u.ssq.slots[i].seq = none ∧ Msg.ulcPlace i ∈ u.agenda) ∧
    (q.waits .mainDown = true → q.enabled = false ∨ q.debounced = .unlatched →
      ∃ u : State, EndsIn (.mainDownDelayExpiry i) s s u ∧ SlotEvent i s u ∧
        u.ssq.slots[i].state = .standbyDown ∧ u.ssq.slots[i].abortHold = false ∧ u.ssq.slots[i].shedHold = false ∧
        u.ssq.slots[i].seq = some { wait := .standbyDown, left := s.ssq.tDown * 20 }) ∧
    (q.waits .mainDown = true → q.enabled = true → q.debounced ≠ .unlatched → (s.bladeEntry i).state ≠ .valid →
      ∃ u : State, EndsIn (.mainDownDelayExpiry i) s s u ∧ SlotEvent i s u ∧
        u.ssq.slots[i].state = .identifying ∧ u.ssq.slots[i].downCause = none) ∧
    (q.waits .mainDown = true → q.enabled = true → q.debounced ≠ .unlatched → (s.bladeEntry i).state = .valid →
      ∃ u : State, EndsIn (.mainDownDelayExpiry i) s s u ∧ SlotEvent i s u ∧
        let abort := q.abortHold || q.downCause == some .abort
        let shed := q.shedHold || q.downCause == some .shed
        u.ssq.slots[i].abortHold = abort ∧ u.ssq.slots[i].shedHold = shed ∧ u.ssq.slots[i].downCause = none ∧
          (waitsOn abort shed → u.ssq.slots[i].state = .admitWait) ∧ (¬waitsOn abort shed → u.ssq.slots[i].state = .ready)) ∧
    (q.waits .standbyDown = true →
      ∃ u : State, EndsIn (.standbyDownDelayExpiry i) s s u ∧ SlotEvent i s u ∧
        u.ssq.slots[i].state = (if q.enabled = false ∧ q.debounced = .seated then .held else .detecting))

/-- R57 with R45, R46, R50, R52–R55: each cause of a slot fault takes the slot to FAULT in its event, with the reason the rule names and SLOT_FAULT with its code, no
sequence timer, no hold and no down cause; a power-good that is lost where it is not watched is only kept as read; and a timeout that is
not running does nothing (the model's reading of the row, notes/assumptions/10.md). (A slot that is held up acts later,
notes/assumptions/13.md.) -/
def Obligations.SlotFaultsFollowTheirCause : Prop :=
  ∀ (i : Slot) (s : State), Acting (.slot i) s →
    let q := s.ssq.slots[i]
    let sby := s.updPins fun p => { p with sbyPg := p.sbyPg.set i false }
    let main := s.updPins fun p => { p with mainPg := p.mainPg.set i false }
    let faulted := fun (s0 : State) (r : FaultReason) (c : Instr) => ∃ u : State, EndsIn c s s0 u ∧ SlotEvent i s0 u ∧
      Raised .slotFault (.slot i) (putField 0 r.code) s0 u ∧
      u.ssq.slots[i].state = .fault ∧ u.ssq.slots[i].reason = r ∧ u.ssq.slots[i].seq = none ∧
      u.ssq.slots[i].abortHold = false ∧ u.ssq.slots[i].shedHold = false ∧ u.ssq.slots[i].downCause = none ∧
      u.ssq.slots[i].activity = .stopped
    (q.sbyPg = true → q.state ∈ [.identifying, .ready, .admitWait, .mainUp, .run, .detach, .mainDown] ∨
        (q.state = .standbyUp ∧ q.waits .standbyStep = true) → faulted sby .standbyPg (.sbyPgLost i)) ∧
    (q.sbyPg = false ∨ q.state ∈ [.empty, .detecting, .held, .standbyDown, .fault] ∨
        (q.state = .standbyUp ∧ q.waits .standbyStep = false) →
      ∃ u : State, EndsIn (.sbyPgLost i) s sby u ∧ SlotEvent i sby u ∧
        u.ssq.slots[i] = { q with sbyPg := false }) ∧
    (q.mainPg = true → q.state ∈ [.run, .detach] ∨ (q.state = .mainUp ∧ q.waits .mainStep = true) →
      faulted main .mainPg (.mainPgLost i)) ∧
    (q.mainPg = false ∨ q.state ∉ [.mainUp, .run, .detach] ∨ (q.state = .mainUp ∧ q.waits .mainStep = false) →
      ∃ u : State, EndsIn (.mainPgLost i) s main u ∧ SlotEvent i main u ∧
        u.ssq.slots[i] = { q with mainPg := false }) ∧
    (q.waits .standbyTimeout = true → faulted s .standbyPg (.standbyTimeout i)) ∧
    (q.waits .identity = true → faulted s .identity (.identityTimeout i)) ∧
    (q.waits .mainTimeout = true → faulted s .mainPg (.mainTimeout i)) ∧
    (q.waits .standbyTimeout = false → EndsIn (.standbyTimeout i) s s s) ∧
    (q.waits .identity = false → EndsIn (.identityTimeout i) s s s) ∧
    (q.waits .mainTimeout = false → EndsIn (.mainTimeout i) s s s)

/-- R49: a slot enters ADMIT_WAIT from READY exactly where it asks for power, is enabled, is under no hold, the mode is not QUIESCE and
its link is NORMAL; and only then does the examination change anything. -/
def Obligations.AdmitWaitNeedsEveryCondition : Prop :=
  ∀ (i : Slot) (s : State),
    ((examine i s).ssq.slots[i].state = .admitWait ∧ s.ssq.slots[i].state ≠ .admitWait ↔
      s.ssq.slots[i].state = .ready ∧ s.ssq.slots[i].request ≠ 0 ∧ s.ssq.slots[i].enabled = true ∧
        s.ssq.slots[i].abortHold = false ∧ s.ssq.slots[i].shedHold = false ∧ s.meu.actual ≠ .quiesce ∧
        s.ssq.slots[i].linkState = .normal) ∧
    (mayWait s i = false → examine i s = s)

/-- R63, R64: the activity timer that runs out makes the slot SILENT, raises SLOT_SILENT with the timer's length in seconds as its detail and
tells the PAL; a timer that is not running does nothing (notes/assumptions/10.md); an activity notice starts a running timer again at the
count × 8 s, and makes a SILENT slot active again. -/
def Obligations.ActivityTimerMakesASlotSilent : Prop :=
  ∀ (i : Slot) (s : State),
    (∀ n : Nat, Acting (.slot i) s → s.ssq.slots[i].activityTimer = some n →
      ∃ u : State, EndsIn (.activityTimerExpiry i) s s u ∧ SlotEvent i s u ∧
        u.ssq.slots[i] = { s.ssq.slots[i] with activity := .silent, activityTimer := none } ∧
        u.agenda = s.agenda ++ [.palSilent i true] ∧
        Raised .slotSilent (.slot i) (putField 0 (s.ssq.slots[i].activityCount * 8)) s u) ∧
    (Acting (.slot i) s → s.ssq.slots[i].activityTimer = none → EndsIn (.activityTimerExpiry i) s s s) ∧
    (s.ssq.slots[i].activity = .watching → 0 < s.ssq.slots[i].activityCount →
      (takeActivity i s).ssq.slots[i].activityTimer = some (s.ssq.slots[i].activityCount * 8000)) ∧
    (s.ssq.slots[i].activity = .silent → 0 < s.ssq.slots[i].activityCount →
      (takeActivity i s).ssq.slots[i].activity = .watching ∧
        (takeActivity i s).ssq.slots[i].activityTimer = some (s.ssq.slots[i].activityCount * 8000) ∧
        (takeActivity i s).agenda = s.agenda ++ [.palSilent i false]) ∧
    (s.ssq.slots[i].activity = .stopped → takeActivity i s = s)

/-! ## Inventory (chapter 4) -/

/-- R80, R83: a module's presence line. Its change starts the 20 ms debounce; debounced present, the bay's entry becomes PENDING, the bay
joins the reader's queue and its PSM or ULC side is told; debounced absent, the entry becomes EMPTY, the bay leaves the reader wherever
it stands, a read of it under way ending with a STOP, and its side is told; an expiry that changes nothing stops the timer, and one of no running timer does nothing
(notes/assumptions/10.md). A bay that is held up acts later (notes/assumptions/13.md).
R88, R147: what an arrival and a removal do to a supply and to an uplink module: an arrival at an EMPTY bay enters IDENTIFYING with its
count and reason cleared, a removal EMPTY with its figures, members and counts cleared; the rest is left as it is. R98, R152: a supply removed
while it is on raises PSU_FAULT with reason REMOVED and the count 0, and an uplink removed while it is UP UPLINK_DOWN, before its members
are placed again. -/
def Obligations.ModulePresenceIsDebounced : Prop :=
  (∀ (b : ModuleBay) (s : State), Acting (.entry (bayEntry b)) s →
    let x := s.inv.bays[b]
    let told := fun present : Bool => match baySide b with
      | .inl p => Msg.psmPresence p present
      | .inr u => Msg.ulcPresence u present
    (∀ level : Bool, x.raw ≠ level →
      let p := s.updPins (Pins.setBayPres b level)
      ∃ u : State, EndsIn (.modulePresenceChange b level) s p u ∧ ReaderEvent p u ∧
        u.inv.bays[b] = { x with raw := level, debounce := some 20 } ∧ u.inv.entries = s.inv.entries ∧
        ∀ c : ModuleBay, c ≠ b → u.inv.bays[c] = s.inv.bays[c]) ∧
    (∀ n : Nat, x.debounce = some n → x.raw = true → x.present = false →
      ∃ u : State, EndsIn (.modulePresenceDebounceExpiry b) s s u ∧ ReaderEvent s u ∧
        u.inv.bays[b] = { x with debounce := none, present := true } ∧ u.inv.queue = s.inv.queue ++ [b] ∧
        u.inv.entries[bayEntry b] = { s.inv.entries[bayEntry b] with state := .pending, attempts := 0, inserted := s.now } ∧
        u.agenda = s.agenda ++ [told true] ∧
        ∀ c : ModuleBay, c ≠ b → u.inv.bays[c] = s.inv.bays[c] ∧ u.inv.entries[bayEntry c] = s.inv.entries[bayEntry c]) ∧
    (∀ n : Nat, x.debounce = some n → x.raw = false → x.present = true →
      ∃ u : State, EndsIn (.modulePresenceDebounceExpiry b) s s u ∧ ReaderEvent s u ∧
        u.inv.bays[b] = { x with debounce := none, present := false, retry := none } ∧
        u.inv.entries[bayEntry b] = InvEntry.empty (s.inv.entries[bayEntry b]).kind ∧ u.inv.queue = s.inv.queue.filter (· != b) ∧
        (∀ r ∈ u.inv.reading, r.bay ≠ b) ∧ u.agenda = s.agenda ++ [told false] ∧
        (∀ r ∈ s.inv.reading, if r.bay = b then u.inv.sent.getLast? = some .stop else u.inv.sent = s.inv.sent) ∧
        ∀ c : ModuleBay, c ≠ b → u.inv.bays[c] = s.inv.bays[c] ∧ u.inv.entries[bayEntry c] = s.inv.entries[bayEntry c]) ∧
    (∀ n : Nat, x.debounce = some n → x.raw = x.present →
      ∃ u : State, EndsIn (.modulePresenceDebounceExpiry b) s s u ∧ ReaderEvent s u ∧
        u.inv.bays[b] = { x with debounce := none } ∧ u.inv.entries = s.inv.entries ∧ u.inv.queue = s.inv.queue) ∧
    (x.debounce = none → EndsIn (.modulePresenceDebounceExpiry b) s s s)) ∧
  (∀ (b : PsuBay) (s : State), let p := s.psm.bays[b]
      (∀ present : Bool, s.acts (.psu b) → handle (.psmPresence b present) s = takePsuPresence b present s) ∧
      (p.state = .empty → let r := (takePsuPresence b true s).psm.bays[b]
        r.state = .identifying ∧ r.faults = 0 ∧ r.reason = .none ∧ r.capacity = 0 ∧ r.changed = s.now) ∧
      (p.state ≠ .empty → takePsuPresence b true s = s) ∧ (p.state = .empty → takePsuPresence b false s = s) ∧
      (p.state ≠ .empty → RaisedThen
        (if p.state = .starting ∨ p.state = .online then [(.psuFault, .psu b, putField 0 4)] else [])
        [.redundancyLost, .redundancyMet] s (takePsuPresence b false s)) ∧
      (p.state ≠ .empty → let r := (takePsuPresence b false s).psm.bays[b]
        r.state = .empty ∧ r.faults = 0 ∧ r.reason = .none ∧ r.rated = 0 ∧ r.capacity = 0 ∧ r.band = .healthy ∧ r.alert = false ∧
          r.start = none ∧ r.restart = none ∧ r.decay = none ∧ r.alertTimer = none ∧ r.changed = s.now) ∧
      ∀ (present : Bool) (c : PsuBay), c ≠ b → (takePsuPresence b present s).psm.bays[c] = s.psm.bays[c]) ∧
  ∀ (b : UplinkBay) (s : State), let x := s.ulc.bays[b]
      (∀ present : Bool, handle (.ulcPresence b present) s = takeUplinkPresence b present s) ∧
      (x.state = .empty → let r := (takeUplinkPresence b true s).ulc.bays[b]
        r.state = .identifying ∧ r.flap = 0 ∧ r.held = false ∧ r.reason = .none ∧ r.members = []) ∧
      (x.state ≠ .empty → takeUplinkPresence b true s = s) ∧ (x.state = .empty → takeUplinkPresence b false s = s) ∧
      (x.state ≠ .empty → RaisedThen (if x.state = .up then [(.uplinkDown, .uplink b, putField 8 x.members.length)] else [])
        [.slotParked] s (takeUplinkPresence b false s)) ∧
      (x.state ≠ .empty → let r := (takeUplinkPresence b false s).ulc.bays[b]
        r.state = .empty ∧ r.flap = 0 ∧ r.held = false ∧ r.reason = .none ∧ r.figures = ⟨0, 0, 0⟩ ∧ r.members = [] ∧
          r.power = none ∧ r.link = none ∧ r.decay = none)

/-- R81, R69: the reader takes the bay at the head of its queue, one attempt at a time, with its bay select on, and sends START, the EEPROM's
address 0x50 for writing, the byte offset 0, a repeated START and the address for reading. Word 0, whose bytes it acknowledges but for the
last, is checked in order: the version, then the kind, then the length in 8–63, which for a blade is the length committed; a word 0 that
passes is kept and the rest of the record asked for at byte 4, and one that fails rejects the record. An attempt that cannot start, and a
READER_WORD0_READ where no attempt waits for it, do nothing (notes/assumptions/10.md); a bay that is held up acts later
(notes/assumptions/13.md). What the symbols stand for in time is notes/assumptions/23.md. -/
def Obligations.ReaderReadsOneBayAtATime : Prop :=
  (∀ (b : ModuleBay) (s : State), Acting (.entry (bayEntry b)) s →
    let readAt := fun offset : Byte =>
      [LineSymbol.start, .address 0x50#7 false, .byte offset, .repeatedStart, .address 0x50#7 true]
    (∀ rest : List ModuleBay, s.inv.reading = none → s.inv.queue = b :: rest →
      ∃ u : State, EndsIn .readerAttemptStart s s u ∧ ReaderEvent s u ∧
        u.inv.reading = some { bay := b, word0 := none } ∧ u.inv.queue = rest ∧ u.inv.sent = readAt 0x00#8 ∧
        u.inv.entries[bayEntry b] =
          { s.inv.entries[bayEntry b] with state := .reading, attempts := (s.inv.entries[bayEntry b]).attempts + 1 } ∧
        (∀ c : ModuleBay, c ≠ b → u.inv.entries[bayEntry c] = s.inv.entries[bayEntry c]) ∧
        (ends s u).outs.baySelect = some b) ∧
    ((s.inv.reading.isSome = true ∧ s.inv.queue.head? = some b) ∨ s.inv.queue = [] →
      EndsIn .readerAttemptStart s s s) ∧
    (∀ w : Word, s.inv.reading = some { bay := b, word0 := none } →
      (checkWord0 (kindOf (bayEntry b)) none w = none →
        ∃ u : State, EndsIn (.readerWord0Read w) s s u ∧ ReaderEvent s u ∧
          u.inv = { s.inv with
            reading := some { bay := b, word0 := some w }
            sent := s.inv.sent ++ [.ack, .ack, .ack, .nack, .stop] ++ readAt 0x04#8 } ∧ (ends s u).outs.baySelect = some b) ∧
      (∀ r : Reason, checkWord0 (kindOf (bayEntry b)) none w = some r → s.inv.entries[bayEntry b].state = .reading →
        ∃ u : State, EndsIn (.readerWord0Read w) s s u ∧ ReaderEvent s u ∧ u.inv.reading = none ∧
          u.inv.sent = s.inv.sent ++ [.ack, .ack, .ack, .nack, .stop] ∧
          u.inv.entries[bayEntry b].state = .rejected ∧ u.inv.entries[bayEntry b].verdict = .rejected ∧
          u.inv.entries[bayEntry b].reason = r ∧
          ∀ c : ModuleBay, c ≠ b → u.inv.entries[bayEntry c] = s.inv.entries[bayEntry c])) ∧
    (∀ w : Word, (s.inv.reading = none ∨ ∃ v : Word, s.inv.reading = some { bay := b, word0 := some v }) →
      EndsIn (.readerWord0Read w) s s s)) ∧
  ∀ (k : Kind) (committed : Option Nat) (w : Word),
    (getField w 16 8 ≠ 1 → checkWord0 k committed w = some .version) ∧
    (getField w 16 8 = 1 → getField w 8 8 ≠ k.code → checkWord0 k committed w = some .kind) ∧
    (getField w 16 8 = 1 → getField w 8 8 = k.code → (getField w 0 8 < 8 ∨ 63 < getField w 0 8) →
      checkWord0 k committed w = some .length) ∧
    (getField w 16 8 = 1 → getField w 8 8 = k.code → 8 ≤ getField w 0 8 → getField w 0 8 ≤ 63 →
      checkWord0 k committed w = (match committed with
        | some m => if m = getField w 0 8 then none else some .length
        | none => none))

/-- R81, R84, R70: the whole record of a module. With the length of word 0 and the sum of all words zero it is VALID, and its profile is the
clamped one; with another sum it is REJECTED with CHECKSUM; either way the bay's side is told. A record of another length does nothing (the
model's reading of the row, notes/assumptions/2.md). A profile's field in its range keeps its value, one outside it takes the nearer limit
and sets its note, a field at or beyond the checksum word counts as zero, and a cap below the main floor is raised to it.
R88, R147: the verdict at a supply and at an uplink module that are IDENTIFYING: VALID starts the supply with its rated output, and
switches the module to OFF with its figures; REJECTED makes either REJECTED. In any other state it does nothing. -/
def Obligations.ModuleRecordGetsItsVerdict : Prop :=
  (∀ (b : ModuleBay) (w : Word) (words : List Word) (s : State), Acting (.entry (bayEntry b)) s →
    s.inv.reading = some { bay := b, word0 := some w } →
    (words.length + 1 = getField w 0 8 → s.inv.entries[bayEntry b].state = .reading →
      ∃ u : State, EndsIn (.readerRecordRead words) s s u ∧ ReaderEvent s u ∧ u.inv.reading = none ∧
        u.inv.bays = s.inv.bays ∧ u.inv.queue = s.inv.queue ∧
        u.inv.sent = s.inv.sent ++ List.replicate (4 * words.length - 1) .ack ++ [.nack, .stop] ∧
        (∀ c : ModuleBay, c ≠ b → u.inv.entries[bayEntry c] = s.inv.entries[bayEntry c]) ∧
        let profile := (profileOf s.inv.entries[bayEntry b].kind (w :: words)).1
        if (w :: words).foldl (· + ·) 0#32 = 0#32 then
          u.inv.entries[bayEntry b].state = .valid ∧ u.inv.entries[bayEntry b].verdict = .valid ∧
            u.inv.entries[bayEntry b].active = some profile ∧ u.inv.entries[bayEntry b].validated = s.now ∧
            u.agenda = s.agenda ++ [match baySide b with
              | .inl p => .psmVerdict p (some (match profile with | .psu r => r | _ => 0))
              | .inr x => .ulcVerdict x (some (match profile with | .module m => m | _ => ⟨0, 0, 0⟩))]
        else u.inv.entries[bayEntry b].state = .rejected ∧ u.inv.entries[bayEntry b].reason = .checksum ∧
          u.agenda = s.agenda ++ [match baySide b with
            | .inl p => .psmVerdict p none
            | .inr x => .ulcVerdict x none]) ∧
    (words.length + 1 ≠ getField w 0 8 → EndsIn (.readerRecordRead words) s s s)) ∧
  (∀ w12 w13 : Word, let p := (bladeProfile w12 w13).1; let notes := (bladeProfile w12 w13).2
    let into := fun lo hi v : Nat => min hi (max lo v)
    p.standbyFloor = into 5 100 (getField w12 0 16) ∧ p.mainFloor = into 50 800 (getField w12 16 16) ∧
      p.cap = into p.mainFloor 1200 (getField w13 0 16) ∧ p.sensors = min 4 (getField w13 16 8) ∧
      p.weight = into 1 4 (getField w13 24 8) ∧
      (notes.getLsbD 0 = true ↔ getField w12 0 16 ≠ p.standbyFloor) ∧ (notes.getLsbD 1 = true ↔ getField w12 16 16 ≠ p.mainFloor) ∧
      (notes.getLsbD 2 = true ↔ getField w13 0 16 ≠ p.cap) ∧ (notes.getLsbD 3 = true ↔ getField w13 16 8 ≠ p.sensors) ∧
      (notes.getLsbD 4 = true ↔ getField w13 24 8 ≠ p.weight)) ∧
  (∀ w : Word, (psuProfile w).1 = min 3000 (max 200 (getField w 0 16))) ∧
  (∀ w : Word, let m := (moduleProfile w).1
    m.capacity = min 32 (max 4 (getField w 0 8)) ∧ m.maxMembers = min 16 (max 1 (getField w 8 8)) ∧
      m.power = min 300 (max 20 (getField w 16 16))) ∧
  (∀ (words : List Word) (k : Nat), (words.length ≤ k + 1 → recordWord words k = 0#32) ∧
    (k + 1 < words.length → words[k]? = some (recordWord words k))) ∧
  (∀ (b : PsuBay) (rated : Option Nat) (s : State), let p := s.psm.bays[b]
      (s.acts (.psu b) → handle (.psmVerdict b rated) s = takePsuVerdict b rated s) ∧
      (p.state ≠ .identifying → takePsuVerdict b rated s = s) ∧
      (p.state = .identifying → rated = none → (takePsuVerdict b rated s).psm.bays[b].state = .rejected) ∧
      ∀ r : Nat, p.state = .identifying → rated = some r → p.alert = false → let x := (takePsuVerdict b rated s).psm.bays[b]
        x.state = .starting ∧ x.rated = r ∧ x.start = some 2000 ∧ x.faults = p.faults ∧ x.capacity = 0) ∧
  ∀ (b : UplinkBay) (figures : Option ModuleFigures) (s : State), let x := s.ulc.bays[b]
      handle (.ulcVerdict b figures) s = takeUplinkVerdict b figures s ∧
      (x.state ≠ .identifying → takeUplinkVerdict b figures s = s) ∧
      (x.state = .identifying → figures = none → (takeUplinkVerdict b figures s).ulc.bays[b].state = .rejected) ∧
      ∀ f : ModuleFigures, x.state = .identifying → figures = some f →
        (takeUplinkVerdict b figures s).ulc.bays[b].state = .off ∧ (takeUplinkVerdict b figures s).ulc.bays[b].figures = f

/-- R81, R82: a failed attempt, whether a byte is not acknowledged or SCL stays low, ends at once with a STOP, so that of the read under way
the symbols up to that byte have been sent and no more (which byte, is a free value, notes/assumptions/37.md), and leads to a retry after
100 ms, and at the third to the verdict NO_RESPONSE; the retry timer puts the bay at the tail of the reader's queue. Without an attempt, or a running timer,
nothing is done (notes/assumptions/10.md); a bay that is held up acts later (notes/assumptions/13.md). -/
def Obligations.FailedReadsAreRetried : Prop :=
  ∀ (b : ModuleBay) (w0 : Option Word) (s : State), Acting (.entry (bayEntry b)) s →
    (∀ c : Instr, c = .readerNack ∨ c = .readerSclTimeout →
      (s.inv.reading = some { bay := b, word0 := w0 } → s.inv.entries[bayEntry b].attempts < 3 →
        ∃ u : State, EndsIn c s s u ∧ ReaderEvent s u ∧ u.inv.reading = none ∧ u.inv.queue = s.inv.queue ∧
          u.inv.bays[b] = { s.inv.bays[b] with retry := some 100 } ∧ (ends s u).outs.baySelect = none ∧
          u.inv.entries[bayEntry b] = { s.inv.entries[bayEntry b] with state := .pending } ∧
          ∀ d : ModuleBay, d ≠ b →
            u.inv.bays[d] = s.inv.bays[d] ∧ u.inv.entries[bayEntry d] = s.inv.entries[bayEntry d]) ∧
      (s.inv.reading = some { bay := b, word0 := w0 } → 3 ≤ s.inv.entries[bayEntry b].attempts →
        s.inv.entries[bayEntry b].state = .reading →
        ∃ u : State, EndsIn c s s u ∧ ReaderEvent s u ∧ u.inv.reading = none ∧ u.inv.bays = s.inv.bays ∧
          u.inv.entries[bayEntry b].state = .rejected ∧ u.inv.entries[bayEntry b].reason = .noResponse) ∧
      (s.inv.reading = none → EndsIn c s s s)) ∧
    (∀ n : Nat, s.inv.bays[b].retry = some n →
      ∃ u : State, EndsIn (.retryTimerExpiry b) s s u ∧ ReaderEvent s u ∧
        u.inv.bays[b] = { s.inv.bays[b] with retry := none } ∧ u.inv.queue = s.inv.queue ++ [b] ∧
        u.inv.entries = s.inv.entries ∧ ∀ d : ModuleBay, d ≠ b → u.inv.bays[d] = s.inv.bays[d]) ∧
    (s.inv.bays[b].retry = none → EndsIn (.retryTimerExpiry b) s s s) ∧
    (s.inv.reading = some { bay := b, word0 := w0 } →
      let bytes := w0.elim 4 fun w => 4 * (getField w 0 8 - 1)
      let k := Config.nackedByte s.freeDraws
      EndsIn .readerNack s s (readerFail (if k = 0 then 2 else if k = 1 then 3 else 5) s) ∧
      EndsIn .readerSclTimeout s s (readerFail (Config.readCut s.freeDraws) s) ∧
      ∀ (n : Nat) (before : List LineSymbol) (offset : Byte),
        let start := [LineSymbol.start, .address 0x50#7 false, .byte offset, .repeatedStart, .address 0x50#7 true]
        s.inv.sent = before ++ start →
        (readerFail n s).freeDraws = s.freeDraws + 1 ∧
        (n ≤ 5 → (readerFail n s).inv.sent = before ++ start.take n ++ [.stop]) ∧
        (5 < n → n < 5 + bytes → (readerFail n s).inv.sent = s.inv.sent ++ List.replicate (n - 5) .ack ++ [.stop]))

/-- R71–R73, R75, R16: a blade's verification. A commit of 8–63 words begins one and makes a PENDING or REJECTED entry VERIFYING, any other
length but 0 is rejected with LENGTH; word 0 is checked at its answer, an answered word is followed by the request for the next, and the
last word brings the verdict; a write to the FRU area meanwhile ends it with TORN. Every verdict offers its acknowledgement, and tells the
SSQ. An answer without a verification under way does nothing (notes/assumptions/10.md); an entry that is held up takes it later
(notes/assumptions/13.md).
R78, R79, R76: the law of identity. A commit leaves a VALID entry VALID while it is verified again; a rejection leaves it VALID with its
profile; a new VALID record is its active profile at once, but where the slot's main floor is counted it waits as the pending one, and is
promoted and handed over when the slot enters READY. The entry to STANDBY_UP makes the entry PENDING without a profile.
R86: a promotion of the profile that is active already raises the change count as it is made; one of another profile is counted with the
other changes of its event. -/
def Obligations.VerificationReadsWordByWord : Prop :=
  (∀ (i : Slot) (n : Nat) (s : State),
    (8 ≤ n → n ≤ 63 → (s.bladeEntry i).state ≠ .empty →
      ((takeCommit i n s).bladeEntry i).state =
          (if (s.bladeEntry i).state = .pending ∨ (s.bladeEntry i).state = .rejected then .verifying else (s.bladeEntry i).state) ∧
        ((takeCommit i n s).bladeEntry i).active = (s.bladeEntry i).active ∧
        (takeCommit i n s).inv.verifications[i] =
          some { length := n, serial := s.inv.serials[i] + 1, words := [], sum := 0#32 }) ∧
    (1 ≤ n → (n < 8 ∨ 63 < n) → (s.bladeEntry i).state = .pending →
      ((takeCommit i n s).bladeEntry i).state = .rejected ∧ ((takeCommit i n s).bladeEntry i).reason = .length ∧
        { off := 0x20F + i.val * 64, kind := .ack n 1 false } ∈ (takeCommit i n s).wra.offered ∧
        Msg.ssqVerdict i false ∈ (takeCommit i n s).agenda) ∧
    (∀ v : Verification, s.inv.verifications[i] = some v → (s.bladeEntry i).state = .verifying →
      ((takeFruWrite i s).bladeEntry i).state = .rejected ∧ ((takeFruWrite i s).bladeEntry i).reason = .torn ∧
        (takeFruWrite i s).inv.verifications[i] = none ∧
        { off := 0x20F + i.val * 64, kind := .ack v.length 1 false } ∈ (takeFruWrite i s).wra.offered ∧
        Msg.ssqVerdict i false ∈ (takeFruWrite i s).agenda) ∧
    (∀ v : Verification, Acting (.entry (slotEntry i)) s → s.drc.started = true → s.drc.debt < 8 → s.wra.queue = [] →
      s.inv.verifications[i] = some v → s.wra.reads = [.verify i v.serial v.words.length] → s.wra.readsWaiting = [] →
      let w := s.image (0x600 + i.val * 64 + v.words.length)
      let bad := if v.words = [] then checkWord0 .blade (some v.length) w else none
      (bad = none → v.words.length + 1 < v.length →
        ∃ u : State, EndsIn (.verifyWordAnswer i) s s u ∧ u = { s with inv := u.inv, wra := u.wra } ∧
          u.wra.reads = [.verify i v.serial (v.words.length + 1)] ∧ u.inv.entries = s.inv.entries ∧
          u.inv.verifications[i] = some { v with words := w :: v.words, sum := v.sum + w }) ∧
      (∀ r : Reason, bad = some r → (s.bladeEntry i).state = .verifying →
        ∃ u : State, EndsIn (.verifyWordAnswer i) s s u ∧ u.mem = s.mem ∧ u.inv.verifications[i] = none ∧
          { off := 0x20F + i.val * 64, kind := .ack v.length 1 false } ∈ u.wra.offered ∧ Msg.ssqVerdict i false ∈ u.agenda ∧
          (u.bladeEntry i).state = .rejected ∧ (u.bladeEntry i).reason = r) ∧
      (bad = none → v.length ≤ v.words.length + 1 → (s.bladeEntry i).state = .verifying →
        ∃ u : State, EndsIn (.verifyWordAnswer i) s s u ∧ u.mem = s.mem ∧ u.inv.verifications[i] = none ∧
          { off := 0x20F + i.val * 64, kind := .ack v.length 1 false } ∈ u.wra.offered ∧
          Msg.ssqVerdict i (v.sum + w == 0#32) ∈ u.agenda ∧
          (∀ e : EntryNo, e ≠ slotEntry i → u.inv.entries[e] = s.inv.entries[e]) ∧
          (if v.sum + w = 0#32 then (u.bladeEntry i).state = .valid ∧
            (u.bladeEntry i).active = some (profileOf (s.bladeEntry i).kind (w :: v.words).reverse).1
          else (u.bladeEntry i).state = .rejected ∧ (u.bladeEntry i).reason = .checksum))) ∧
    (s.phase = .operating → s.wra.reads = [] → EndsIn (.verifyWordAnswer i) s s s)) ∧
  ∀ (i : Slot) (n : Nat) (r : Ruling) (s : State), let e := s.bladeEntry i; let t := bladeVerdict i n r s; let f := t.bladeEntry i
    (∀ (reason : Reason) (length : Nat), e.state = .valid → r = .rejected reason length →
      f.state = .valid ∧ f.verdict = .rejected ∧ f.reason = reason ∧ f.active = e.active ∧ f.pending = e.pending) ∧
    (∀ words : List Word, e.state = .valid → r = .accepted words → let p := (profileOf e.kind words).1
      f.state = .valid ∧ f.verdict = .valid ∧
        (s.ssq.slots[i].state ∈ [.mainUp, .run, .detach, .mainDown] → f.active = e.active ∧ f.pending = some p) ∧
        (s.ssq.slots[i].state ∉ [.mainUp, .run, .detach, .mainDown] → f.active = some p ∧ f.pending = none ∧
          ∀ b : BladeProfile, p = .blade b → Msg.palProfile i (some b) ∈ t.agenda)) ∧
    (∀ p : Profile, e.pending = some p → let x := (takeInvState i .ready s).bladeEntry i
      x.active = some p ∧ x.pending = none ∧
        (takeInvState i .ready s).inv.changeCount = (if e.active = some p then s.inv.changeCount + 1#32 else s.inv.changeCount) ∧
        ∀ b : BladeProfile, p = .blade b → Msg.palProfile i (some b) ∈ (takeInvState i .ready s).agenda) ∧
    (e.pending = none → takeInvState i .ready s = s) ∧
    let x := takeInvState i .standbyUp s
    (x.bladeEntry i).state = .pending ∧ (x.bladeEntry i).active = none ∧ (x.bladeEntry i).pending = none ∧
      x.inv.verifications[i] = none ∧ Msg.palProfile i none ∈ x.agenda

/-! ## Supplies (chapter 5) -/

/-- R89–R92, R94, R96: PWR_OK and the supply timers. In STARTING the first good reading brings the supply ONLINE with its counted capacity by
its band; its loss in ONLINE adds 32 to the fault count and faults the supply with the restart timer at 10 s, or retires it at 255. The
start timer faults the supply with START, the restart timer starts it again, and the decay timer takes one off the fault count of an ONLINE
supply and runs again; each acts only while it runs (notes/assumptions/10.md). A bay that is held up acts later (R38,
notes/assumptions/13.md).
R98, R95: the entry to ONLINE raises PSU_ONLINE with the counted capacity; a loss of PWR_OK PSU_FAULT with reason PWR_OK and the new count, and
PSU_RETIRED behind it where the count reaches 255; a start timer that runs out PSU_FAULT with reason START. A change that raises the health
band raises PSU_DEGRADED with band, count and counted capacity, and no event of the supply comes otherwise. (That PSU_DEGRADED stands behind
the others: notes/assumptions/25.md. The redundancy events of R100 follow where the capacity changed.) -/
def Obligations.PwrOkAndSupplyTimersMoveASupply : Prop :=
  ∀ (b : PsuBay) (s : State), Acting (.psu b) s →
    let p := s.psm.bays[b]
    let good := s.updPins fun x => { x with pwrOk := x.pwrOk.set b true }
    let bad := s.updPins fun x => { x with pwrOk := x.pwrOk.set b false }
    let worse := fun (n capacity : Nat) =>
      if degrades p.band (bandOf n) = true then
        [(Cause.psuDegraded, Subject.psu b, putField 0 (bandOf n).code ||| putField 8 n ||| putField 16 capacity)] else []
    let raises := fun (events : List (Cause × Subject × Word)) (s u : State) => RaisedThen events [.redundancyLost, .redundancyMet] s u
    (p.state = .starting →
      ∃ u : State, EndsIn (.pwrOkGood b) s good u ∧ PsuEvent b good u ∧
        raises ([(.psuOnline, .psu b, putField 0 (Psu.counted { p with state := .online }))] ++
          worse p.faults (Psu.counted { p with state := .online })) good u ∧
        u.psm.bays[b].state = .online ∧ u.psm.bays[b].start = none ∧
        u.psm.bays[b].decay = (if p.alert then none else some 60000) ∧
        u.psm.bays[b].capacity = Psu.counted { p with state := .online }) ∧
    (p.state ≠ .starting →
      ∃ u : State, EndsIn (.pwrOkGood b) s good u ∧ PsuEvent b good u ∧ NotRaised good u ∧ u.psm.bays[b] = { p with pwrOk := true }) ∧
    (p.state = .online → p.pwrOk = true →
      ∃ u : State, EndsIn (.pwrOkLost b) s bad u ∧ PsuEvent b bad u ∧
        raises ([(.psuFault, .psu b, putField 0 2 ||| putField 8 (min 255 (p.faults + 32)))] ++
          (if 255 ≤ p.faults + 32 then [(.psuRetired, .psu b, putField 0 2 ||| putField 8 255)] else []) ++
          worse (min 255 (p.faults + 32)) 0) bad u ∧
        u.psm.bays[b].faults = min 255 (p.faults + 32) ∧ u.psm.bays[b].capacity = 0 ∧ u.psm.bays[b].reason = .pwrOk ∧
        (if p.faults + 32 < 255 then u.psm.bays[b].state = .faulted ∧ u.psm.bays[b].restart = some 10000
        else u.psm.bays[b].state = .retired ∧ u.psm.bays[b].restart = none)) ∧
    (p.state ≠ .online ∨ p.pwrOk = false →
      ∃ u : State, EndsIn (.pwrOkLost b) s bad u ∧ PsuEvent b bad u ∧ NotRaised bad u ∧ u.psm.bays[b] = { p with pwrOk := false }) ∧
    (∀ n : Nat, p.state = .starting → p.start = some n →
      ∃ u : State, EndsIn (.startTimerExpiry b) s s u ∧ PsuEvent b s u ∧ u.psm.bays[b].state = .faulted ∧
        raises ([(.psuFault, .psu b, putField 0 1 ||| putField 8 p.faults)] ++ worse p.faults 0) s u ∧
        u.psm.bays[b].reason = .start ∧ u.psm.bays[b].restart = some 10000 ∧ u.psm.bays[b].start = none ∧
        u.psm.bays[b].faults = p.faults) ∧
    (∀ n : Nat, p.state = .faulted → p.restart = some n → p.alert = false →
      ∃ u : State, EndsIn (.restartTimerExpiry b) s s u ∧ PsuEvent b s u ∧ raises (worse p.faults 0) s u ∧ u.psm.bays[b].state = .starting ∧
        u.psm.bays[b].start = some 2000 ∧ u.psm.bays[b].restart = none ∧ u.psm.bays[b].faults = p.faults) ∧
    (∀ n : Nat, p.state = .online → p.decay = some n →
      ∃ u : State, EndsIn (.faultDecayExpiry b) s s u ∧ PsuEvent b s u ∧
        raises (worse (p.faults - 1) (Psu.counted { p with faults := p.faults - 1 })) s u ∧ u.psm.bays[b].faults = p.faults - 1 ∧
        u.psm.bays[b].decay = some 60000 ∧ u.psm.bays[b].state = .online ∧ u.psm.bays[b].band = bandOf (p.faults - 1)) ∧
    (p.start = none → EndsIn (.startTimerExpiry b) s s s) ∧
    (p.restart = none → EndsIn (.restartTimerExpiry b) s s s) ∧
    (p.decay = none → EndsIn (.faultDecayExpiry b) s s s)

/-- R93, R94, R96: ALERT. A change of the line starts the 20 ms debounce; an assertion that outlasts it adds 8 to the fault count of a supply
that is on and stops its decay, and a count of 255 retires the supply; its end in ONLINE starts the decay again. An assertion at a supply
that is off only stands, and an expiry of no running debounce does nothing (notes/assumptions/10.md). A bay that is held up acts later
(R38, notes/assumptions/13.md).
R98, R95: an assertion that brings the count to 255 raises PSU_RETIRED with reason ALERT; one that raises the health band to degraded or
suspect PSU_DEGRADED with band, count and counted capacity; no other event of the supply comes. -/
def Obligations.AlertsCountFaults : Prop :=
  ∀ (b : PsuBay) (s : State), Acting (.psu b) s →
    let p := s.psm.bays[b]
    (∀ level : Bool, let x := s.updPins fun x => { x with alert := x.alert.set b level }
      ∃ u : State, EndsIn (.alertRawChange b level) s x u ∧ PsuEvent b x u ∧ NotRaised x u ∧
        u.psm.bays[b] = (if p.alertRaw = level then p else { p with alertRaw := level, alertTimer := some 20 })) ∧
    (∀ n : Nat, p.alertTimer = some n → p.alertRaw = true → p.alert = false → p.state = .online ∨ p.state = .starting →
      ∃ u : State, EndsIn (.alertDebounceExpiry b) s s u ∧ PsuEvent b s u ∧ u.psm.bays[b].alert = true ∧
        u.psm.bays[b].alertTimer = none ∧ u.psm.bays[b].faults = min 255 (p.faults + 8) ∧ u.psm.bays[b].decay = none ∧
        RaisedThen
          ((if 255 ≤ p.faults + 8 then [(.psuRetired, .psu b, putField 0 3 ||| putField 8 255)] else []) ++
            if degrades p.band (bandOf (min 255 (p.faults + 8))) = true then
              [(.psuDegraded, .psu b, putField 0 (bandOf (min 255 (p.faults + 8))).code ||| putField 8 (min 255 (p.faults + 8)) |||
                putField 16 (if p.state = .online then
                  Psu.counted { p with state := .online, faults := min 255 (p.faults + 8) } else 0))] else [])
          [.redundancyLost, .redundancyMet] s u ∧
        u.psm.bays[b].state = (if p.faults + 8 < 255 then p.state else .retired)) ∧
    (∀ n : Nat, p.alertTimer = some n → p.alertRaw = true → p.alert = false → p.state ≠ .online → p.state ≠ .starting →
      ∃ u : State, EndsIn (.alertDebounceExpiry b) s s u ∧ PsuEvent b s u ∧ NotRaised s u ∧
        u.psm.bays[b] = { p with alert := true, alertTimer := none }) ∧
    (∀ n : Nat, p.alertTimer = some n → p.alertRaw = false → p.alert = true →
      ∃ u : State, EndsIn (.alertDebounceExpiry b) s s u ∧ PsuEvent b s u ∧ NotRaised s u ∧
        u.psm.bays[b] = { p with
          alert := false, alertTimer := none, decay := if p.state = .online then some 60000 else p.decay }) ∧
    (p.alertTimer = none → EndsIn (.alertDebounceExpiry b) s s s)

/-- R100: the raw available power by the redundancy policy, and the need it must meet; where the need is not met it is the sum of all six.
R95: the health band of a fault count, and the capacity counted for an ONLINE supply.
R99, R101: when available power is formed again, P_avail is the raw figure less the margin, not below 0; the need that ceases to be met
raises REDUNDANCY_LOST, the need met again REDUNDANCY_MET, with the policy, the number of capacities counted and the raw figure; both
words are published where either has changed; and P_avail is handed to the PAL where it changed, at a new policy or margin always. The PAL
takes it while nothing of the PAL waits (R38, notes/assumptions/13.md). -/
def Obligations.CapacitiesAndPolicyFormRawAvailable : Prop :=
  (∀ a b c d e f : Nat, let caps := [a, b, c, d, e, f]
      rawAvailable .unprotected caps = a + b + c + d + e + f ∧ needMet .unprotected caps = true ∧
      (needMet .nPlusOne caps = true ↔ 2 ≤ (caps.filter (0 < ·)).length) ∧
      (needMet .nPlusOne caps = true → ∃ m ∈ caps, (∀ x ∈ caps, x ≤ m) ∧ rawAvailable .nPlusOne caps + m = caps.sum) ∧
      (needMet .nPlusN caps = true ↔ 0 < a + b + c ∧ 0 < d + e + f) ∧
      (needMet .nPlusN caps = true → rawAvailable .nPlusN caps = min (a + b + c) (d + e + f)) ∧
      ∀ p : Policy, needMet p caps = false → rawAvailable p caps = a + b + c + d + e + f) ∧
  (∀ p : Psu, p.faults ≤ 255 →
      (bandOf p.faults = .healthy ↔ p.faults ≤ 95) ∧ (bandOf p.faults = .degraded ↔ 96 ≤ p.faults ∧ p.faults ≤ 127) ∧
      (bandOf p.faults = .suspect ↔ 128 ≤ p.faults ∧ p.faults ≤ 254) ∧ (bandOf p.faults = .retired ↔ p.faults = 255) ∧
      (p.state ≠ .online → p.counted = 0) ∧
      (p.state = .online → p.counted =
        if p.faults ≤ 95 then p.rated else if p.faults ≤ 127 then p.rated * 75 / 100 else 0)) ∧
  (∀ (always : Bool) (s : State),
      let caps := allPsuBays.map fun b => s.psm.bays[b].capacity
      let raw := rawAvailable s.psm.policy caps
      let detail := putField 0 s.psm.policy.code ||| putField 8 (caps.filter (0 < ·)).length ||| putField 16 raw
      let t := recomputeAvailable always s
      t.psm = { s.psm with rawAvailable := raw, available := raw - s.psm.margin, lost := !needMet s.psm.policy caps } ∧
      (s.psm.lost = false → t.psm.lost = true → Raised .redundancyLost .chassis detail s t) ∧
      (s.psm.lost = true → t.psm.lost = false → Raised .redundancyMet .chassis detail s t) ∧
      (t.psm.lost = s.psm.lost → NotRaised s t) ∧
      t.wra.forced = s.wra.forced ++ (if t.psm.available = s.psm.available ∧ t.psm.lost = s.psm.lost then []
        else [(0x105, BitVec.allOnes 32), (0x106, BitVec.allOnes 32)]) ∧
      t.agenda = s.agenda ++ (if always = true ∨ t.psm.available ≠ s.psm.available then [.palAvailable t.psm.available] else [])) ∧
  ∀ (w : Nat) (s : State), (s.acts .pal → handle (.palAvailable w) s = takeAvailable w s) ∧ (takeAvailable w s).pal.available = w

/-! ## Power allocation (chapter 6) -/

/-- R108: the effective cap, the profile cap scaled by the cooling factor and rounded down to a multiple of 5 W, kept between the floor and
the profile cap; the floor itself at a factor of 0.
R107: the request in use of a slot with an active profile: 0 for a request of 0, else the request brought into floor to effective cap, and the
floor while the slot is SILENT under RECLAIM; every computation forms it again.
R110: the committed floors: the allowance of each slot of STANDBY standing, the floor of each ADMITTED one, or its grant as its commitment where
it has no active profile. A slot takes part in the distribution if it is ADMITTED, or to be, has an active profile, is not departing and bears
no shed marker; a departing one is on its way down, or asks for nothing.
R114: class by class, 0 to 2, what a slot of the class gets: nothing where H is not above 0 or no slot wants anything; its whole want, rounded
down to 5 W, where the wants of the class fit H; else its share of H in proportion to the wants, rounded down to 5 W, and every later class
nothing. H falls by what is given. So a distribution never hands out more than the headroom it has, gives every slot a whole multiple of 5 W
and never more than it wants, and gives nothing where there is no headroom. A computation begins with the headroom that the walks of R112 and
R113 leave.
R115, the law of the grant: a computation gives every slot that is, or is to be, ADMITTED with an active profile a target from its floor
to the larger of floor and effective cap, a whole multiple of 5 W above the floor; an ADMITTED slot without one its commitment, the
grant that stands; a slot of STANDBY standing its allowance, and one of standing NONE 0.
R111: shedding marks class 2 and then class 1, the latest admission first, no slot of class 0, one at a time while the floors kept exceed
the budget and no further; each marked slot is sent its shed request, and SLOT_SHED is raised. (An ADMITTED slot still reported in
ADMIT_WAIT counts as one in MAIN_UP: notes/assumptions/40.md.)
R112: the modules that are OFF are taken A to D; each that fits what is left is admitted, and one that does not is passed over; none
while the mode is not OPERATE, a change is pending, DEFICIT is set or a reduction is unsettled. (A module whose power-on is already handed
over counts in L and is not taken again: notes/assumptions/17.md.)
R113: the blades at the head of the admission queue are admitted as long as each fits; the first that does not stops the walk, whoever
stands behind it, and becomes the blocked head with its event, once; a slot without an active profile does not fit, and what stands for
f − s there, or where f is below s, is left open (notes/assumptions/44.md, 20.md). R110: both begin with what the committed floors leave. -/
def Obligations.TargetsKeepTheLawOfTheGrant : Prop :=
  (∀ floor cap factor : Nat, floor ≤ cap →
      effectiveCap floor cap factor = min cap (max floor (5 * (cap * factor / 500))) ∧
      floor ≤ effectiveCap floor cap factor ∧ effectiveCap floor cap factor ≤ cap ∧ effectiveCap floor cap 0 = floor ∧
      (5 ∣ cap → effectiveCap floor cap 100 = cap)) ∧
  (∀ (p : Pal) (admits : List Slot) (classes : List Nat) (scaled : Bool) (h : Int),
      let d := distribute p admits classes scaled h
      (0 ≤ h → 0 ≤ d.2 ∧ d.2 ≤ h) ∧ (d.2 = h - ((d.1.map (·.2)).sum : Nat)) ∧
      (∀ e ∈ d.1, 5 ∣ e.2 ∧ e.2 ≤ wantOf p e.1 ∧ takesPart p admits e.1 = true) ∧ (h ≤ 0 → ∀ e ∈ d.1, e.2 = 0)) ∧
  (∀ (a : Alloc) (q : Plan), a.plan = some q → a.formUse.inUse =
      (if a.silent = true ∧ a.reclaim = true then q.floor else if a.request = 0 then 0 else min q.effCap (max q.floor a.request))) ∧
  (∀ p : Pal, p.floors = (allSlots.map fun i =>
      match p.slots[i].standing, p.slots[i].plan with
        | .none, _ => 0
        | .standby, _ => p.slots[i].allowance
        | .admitted, some q => q.floor
        | .admitted, none => p.slots[i].grant).sum) ∧
  (∀ (p : Pal) (admits : List Slot) (i : Slot), let a := p.slots[i]
      takesPart p admits i = true ↔ (a.standing = .admitted ∨ i ∈ admits) ∧ a.shed = false ∧
        ∃ q : Plan, a.plan = some q ∧ a.state ∈ [.admitWait, .mainUp, .run] ∧ a.inUse ≠ 0) ∧
  (∀ (p : Pal) (admits : List Slot) (k : Nat) (classes : List Nat) (scaled : Bool) (h : Int),
      let members := allSlots.filter fun i => takesPart p admits i && p.slots[i].cls == k
      let want := fun i : Slot => p.slots[i].inUse - ((p.slots[i].plan.map Plan.floor).getD 0)
      let total := (members.map want).sum
      let gets := fun i : Slot =>
        if scaled = true ∨ h ≤ 0 ∨ total = 0 then 0
        else if (total : Int) ≤ h then 5 * (want i / 5)
        else 5 * (want i * h.toNat / (5 * total))
      let left := h - ((members.map gets).sum : Nat)
      let next := distribute p admits classes (scaled || decide (0 < h ∧ h < (total : Int))) left
      distribute p admits (k :: classes) scaled h = (members.map (fun i => (i, gets i)) ++ next.1, next.2)) ∧
  (∀ (p : Pal) (admits : List Slot) (scaled : Bool) (h : Int), distribute p admits [] scaled h = ([], h)) ∧
  (∀ s : State, let p := (compute s).pal
      let m := admitModules s (s.pal.budget - (s.pal.floors : Nat))
      let d := distribute p p.admits [0, 1, 2] false (admitBlades s.pal m.2).left
      p.headroom = d.2 ∧ p.stranded = d.2.toNat ∧
      ∀ (i : Slot) (q : Plan), s.pal.slots[i].plan = some q → p.slots[i].inUse = s.pal.slots[i].formUse.inUse ∧
        (s.pal.slots[i].standing = .admitted ∨ i ∈ p.admits →
          p.slots[i].target = q.floor + (((d.1.find? fun e => e.1 == i).map (·.2)).getD 0))) ∧
  (∀ (i : Slot) (s : State),
      (∀ q : Plan, s.pal.slots[i].plan = some q →
        (s.pal.slots[i].standing = .admitted ∨ i ∈ (compute s).pal.admits) →
        q.floor ≤ (compute s).pal.slots[i].target ∧ (compute s).pal.slots[i].target ≤ max q.floor q.effCap ∧
          5 ∣ (compute s).pal.slots[i].target - q.floor) ∧
      (s.pal.slots[i].plan = none → s.pal.slots[i].standing = .admitted →
        (compute s).pal.slots[i].target = s.pal.slots[i].grant) ∧
      (s.pal.slots[i].standing = .standby → i ∉ (compute s).pal.admits →
        (compute s).pal.slots[i].target = s.pal.slots[i].allowance) ∧
      (s.pal.slots[i].standing = .none → i ∉ (compute s).pal.admits → (compute s).pal.slots[i].target = 0)) ∧
  ((∀ (p : Pal) (budget : Int),
      let marked := shedList p budget
      let order := shedClass p 2 ++ shedClass p 1
      let kept := fun l : List Slot => (p.floorsKept : Int) - ((l.map fun i => p.slots[i].floorOf).sum : Nat)
      (∀ (k : Nat) (i : Slot), i ∈ shedClass p k ↔ p.slots[i].standing = .admitted ∧ p.slots[i].shed = false ∧ p.slots[i].cls = k ∧
        p.slots[i].state ∈ [.admitWait, .mainUp, .run]) ∧
      (∀ k : Nat, (shedClass p k).Nodup ∧
        (shedClass p k).Pairwise fun i j => p.slots[j].sequence.getD 0 ≤ p.slots[i].sequence.getD 0) ∧
      marked <+: order ∧ (∀ l : List Slot, l <+: marked → l ≠ marked → budget < kept l) ∧ (marked = order ∨ kept marked ≤ budget)) ∧
    (∀ s : State, let marked := shedList s.pal s.pal.budget
      (∀ i : Slot, (compute s).pal.slots[i].shed = (s.pal.slots[i].shed || decide (i ∈ marked))) ∧
      (compute s).agenda = s.agenda ++ marked.map .ssqShed ∧
      ∃ v : State, compute s = marked.foldl (fun s i => shedSlot i s) v ∧ v.pal = (compute s).pal ∧ v.agenda = s.agenda) ∧
    ∀ (i : Slot) (s : State),
      Raised .slotShed (.slot i) (putField 0 s.pal.slots[i].cls ||| putField 16 s.pal.slots[i].floorOf) s (shedSlot i s)) ∧
  (∀ (h : Int) (s : State),
      let r := admitModules s h
      let power := fun b : UplinkBay => (s.ulc.bays[b].figures.power : Int)
      r.1.Pairwise (· < ·) ∧ r.2 = h - (r.1.map power).sum ∧
      ∀ b : UplinkBay, b ∈ r.1 ↔
        s.pal.mode = .operate ∧ s.pal.changePending = false ∧ s.pal.deficit = false ∧ s.pal.unsettled = false ∧
          s.pal.modules[b] = .off ∧ s.pal.handedOver[b] = false ∧ power b ≤ h - ((r.1.filter (· < b)).map power).sum) ∧
  (∀ (p : Pal) (h : Int),
      let w := admitBlades p h
      let need := fun q : QueuePlace => (((p.slots[q.slot].plan.map Plan.floor).getD 0 : Nat) : Int) - (p.slots[q.slot].allowance : Nat)
      if p.mode = .operate ∧ p.changePending = false ∧ p.deficit = false then
        ∃ before behind : List QueuePlace, p.queue = before ++ behind ∧ w.admitted = before.map QueuePlace.slot ∧
          w.left = h - (before.map need).sum ∧
          (∀ (l : List QueuePlace) (q : QueuePlace), l ++ [q] <+: before →
            p.slots[q.slot].plan ≠ none ∧ need q ≤ h - (l.map need).sum) ∧
          (match behind with
            | [] => w.stopped = none
            | q :: _ => w.stopped = some q.slot ∧ (p.slots[q.slot].plan = none ∨ w.left < need q))
      else w = { admitted := [], left := h, stopped := none }) ∧
  (∀ (w : AdmitWalk) (s : State),
      (w.stopped = none ∨ w.stopped = s.pal.blockedHead → noteBlocked w s = s) ∧
      ∀ i : Slot, w.stopped = some i → s.pal.blockedHead ≠ some i →
        (noteBlocked w s).pal = { s.pal with blockedHead := some i } ∧
        ∀ q : Plan, s.pal.slots[i].plan = some q → s.pal.slots[i].allowance ≤ q.floor →
          Raised .admissionBlocked (.slot i) (putField 0 (q.floor - s.pal.slots[i].allowance) ||| putField 16 w.left.toNat) s
            (noteBlocked w s)) ∧
  (∀ (i : Slot) (w : AdmitWalk) (s : State), w.stopped = some i → s.pal.blockedHead ≠ some i →
      (∀ q : Plan, s.pal.slots[i].plan = some q → q.floor < 65536) →
      ∃ bits : BitVec 16, Raised .admissionBlocked (.slot i) (bits.setWidth 32 ||| putField 16 w.left.toNat) s (noteBlocked w s)) ∧
  ∀ s : State,
    let m := admitModules s (s.pal.budget - (s.pal.floors : Nat))
    (compute s).pal.moduleAdmits = m.1 ∧ (compute s).pal.admits = (admitBlades s.pal m.2).admitted

/-- R117, R121, of the hand-overs, the passes and the PAL's turns: no hand-over, no start of a pass and no turn of the PAL raises a published
grant; a pass that finds DEFICIT set completes without raising one; and an event whose hand-overs are done raises none while a reduction is
unsettled or DEFICIT is set.
R121, what RAISE publishes, which a pass enters where DEFICIT is clear: each ADMITTED slot whose target exceeds its grant takes the target
as grant and in force, its epoch one on; with an active profile it loses the adopted marker, and an overdraw level that the grant covers
goes with its cause (R125). Each slot the computation admitted that is still queued, in OPERATE with no change pending, leaves the
queue ADMITTED with the next sequence number, its grant and in-force at its target and the epoch one on, and the SSQ is sent the
admission; each module it admitted that is OFF is handed its power-on. Every other admission and power-on is dropped, no other grant
changes, and L is formed again. The summary words published and those of the markers cleared are posted by the pass (R123). Who counts as
still queued, or as OFF, is notes/assumptions/33.md. -/
def Obligations.NoGrantRisesUnderDeficit : Prop :=
  (∀ (i : Slot) (s : State),
    ((startPass s).pal.slots[i].grant ≤ s.pal.slots[i].grant) ∧ ((palTurn s).pal.slots[i].grant ≤ s.pal.slots[i].grant) ∧
    ((settle s).pal.slots[i].grant ≤ s.pal.slots[i].grant) ∧
    (∀ m : Msg, (handle m s).pal.slots[i].grant ≤ s.pal.slots[i].grant) ∧
    (s.pal.deficit = true → (proceedPass s).pal.slots[i].grant = s.pal.slots[i].grant) ∧
    (agendaDone s = true → s.pal.unsettled = true → ∀ (n : Nat) (base : State), (carry n base s).2 = s) ∧
    (agendaDone s = true → s.pal.deficit = true →
      ∀ (n : Nat) (base : State), (carry n base s).2.pal.slots[i].grant = s.pal.slots[i].grant)) ∧
  ∀ s : State, s.pal.deficit = false →
    let t := enterRaise s
    let may := s.pal.mode = .operate ∧ s.pal.changePending = false
    let queued := fun i : Slot => ∃ q ∈ s.pal.queue, q.slot = i
    proceedPass s = t ∧ t.pal.pass = .raise ∧ t.pal.admits = [] ∧ t.pal.moduleAdmits = [] ∧ t.pal.load = loadOf t ∧
    (t.pal.load ≠ s.pal.load → t.pal.passPending = true) ∧
    (∀ i : Slot, i ∉ s.pal.admits →
      let a := s.pal.slots[i]
      let b := t.pal.slots[i]
      if a.standing = .admitted ∧ a.grant < a.target then
        b.standing = .admitted ∧ b.grant = a.target ∧ b.inForce = a.target ∧ b.epoch = (a.epoch + 1) % 256 ∧
          b.adopted = (a.adopted && a.plan.isNone) ∧ 0x210 + i.val * 64 ∈ t.pal.posting ∧
          (a.adopted = true → b.adopted = false → 0x219 + i.val * 64 ∈ t.pal.posting) ∧
          ∀ d : Nat, a.overdrawLevel = some d →
            b.overdrawLevel = (if d ≤ a.target then none else some d) ∧
              b.causes.overdraw = (a.causes.overdraw && !decide (d ≤ a.target))
      else b.standing = a.standing ∧ b.grant = a.grant ∧ b.inForce = a.inForce ∧ b.epoch = a.epoch ∧ b.adopted = a.adopted ∧
        b.overdrawLevel = a.overdrawLevel) ∧
    (∀ i ∈ s.pal.admits, s.pal.slots[i].standing ≠ .admitted →
      let a := s.pal.slots[i]
      let b := t.pal.slots[i]
      if may ∧ queued i then
        b.standing = .admitted ∧ b.grant = a.target ∧ b.inForce = a.target ∧ b.epoch = (a.epoch + 1) % 256 ∧
          0x210 + i.val * 64 ∈ t.pal.posting ∧ t.pal.passPending = true ∧
          ∃ n : Nat, b.sequence = some n ∧ s.pal.counter < n ∧ n ≤ t.pal.counter
      else b.standing = a.standing ∧ b.grant = a.grant ∧ b.inForce = a.inForce ∧ b.epoch = a.epoch ∧ b.sequence = a.sequence) ∧
    (∀ (before behind : List Slot) (i j : Slot), s.pal.admits = before ++ behind → i ∈ before → j ∈ behind → j ∉ before → may →
      queued i → queued j → ∃ m n : Nat, t.pal.slots[i].sequence = some m ∧ t.pal.slots[j].sequence = some n ∧ m < n) ∧
    (∀ q : QueuePlace, q ∈ t.pal.queue ↔ q ∈ s.pal.queue ∧ ¬ (may ∧ q.slot ∈ s.pal.admits)) ∧
    (∀ b : UplinkBay, t.pal.handedOver[b] = true ↔
      s.pal.handedOver[b] = true ∨ (b ∈ s.pal.moduleAdmits ∧ may ∧ s.pal.modules[b] = .off)) ∧
    ∀ m : Msg, m ∈ t.agenda ↔ m ∈ s.agenda ∨
      (∃ i ∈ s.pal.admits, may ∧ queued i ∧ m = .ssqAdmit i) ∨
      ∃ b ∈ s.pal.moduleAdmits, may ∧ s.pal.modules[b] = .off ∧ m = .ulcPowerOn b

/-- R124, the law of the budget: every step that the ports stay open over keeps it that DEFICIT is set exactly where the in-force amounts and
the load exceed P_avail (`BudgetLaw`), and so it stands as the ports open after FORMAT. After an evaluation it is so; at
the evaluation that sets it DEFICIT_ENTERED is raised and every slot in force above its target is throttled, at the one that clears it
DEFICIT_CLEARED is raised, each with P_avail and the sum as detail, and an evaluation that changes nothing does nothing. Nothing that the sum
is made of changes. -/
def Obligations.DeficitFollowsTheBudget : Prop :=
  (∀ s t : State, s.phase = .operating → t.phase = .operating → BudgetLaw s → step s = .next t → BudgetLaw t) ∧
  (∀ s t : State, s.phase = .formatted false → exec .formatDone s = .next t → BudgetLaw t) ∧
  ∀ s : State,
    let detail := putField 0 s.pal.available ||| putField 16 (s.pal.inForceSum + s.pal.load)
    (s.pal.deficit = false → s.pal.available < s.pal.inForceSum + s.pal.load → Raised .deficitEntered .chassis detail s (evalDeficit s)) ∧
    (s.pal.deficit = true → s.pal.inForceSum + s.pal.load ≤ s.pal.available → Raised .deficitCleared .chassis detail s (evalDeficit s)) ∧
    ((s.pal.deficit = true ↔ s.pal.available < s.pal.inForceSum + s.pal.load) → evalDeficit s = s) ∧
    ((evalDeficit s).pal.deficit = true ↔ s.pal.available < s.pal.inForceSum + s.pal.load) ∧
    (evalDeficit s).pal.inForceSum = s.pal.inForceSum ∧ (evalDeficit s).pal.load = s.pal.load ∧
    (evalDeficit s).pal.available = s.pal.available ∧
    (s.pal.deficit = false → s.pal.available < s.pal.inForceSum + s.pal.load →
      ∀ i : Slot, s.pal.slots[i].target < s.pal.slots[i].inForce → (evalDeficit s).pal.slots[i].causes.deficit = true) ∧
    (s.pal.deficit = true → s.pal.inForceSum + s.pal.load ≤ s.pal.available →
      (evalDeficit s).pal.passPending = true ∧ ∀ i : Slot, (evalDeficit s).pal.slots[i].causes.deficit = false)

/-- R117: the first reduction of an ADMITTED slot whose target is below its grant: the target becomes the grant, the epoch goes one on modulo 256,
the in-force stands, and the reduction is unsettled; its deadline, the reduce timeout on, starts as its grant update is taken into the
write-back queue, and until it is, none runs. A slot of another standing, and a settled one whose target is not below its grant, keeps all
of these; under DEFICIT a slot in force above its target takes the DEFICIT cause.
R118: a further reduction of a slot with one unsettled replaces its grant and epoch; the in-force and the first deadline stand, the slot
settles once, for the latest grant, and a target above the grant waits.
R119, R120, R125: a drawn report that echoes the current epoch within the grant settles an unsettled reduction; the deadline of one
that has not settled settles it late and throttles the slot; a settled slot that reports more than its grant is throttled; a report of another
epoch is a pass trigger alone; a deadline that is not running does nothing (notes/assumptions/10.md). A deadline acts while nothing of the
PAL waits (R38, notes/assumptions/13.md). That the report which settles a
reduction clears a late-reduction mark that stood is notes/assumptions/16.md. -/
def Obligations.ReductionsAreReplacedAndSettled : Prop :=
  (∀ (deficit : Bool) (a : Alloc), let r := a.reduce deficit
      (a.standing = .admitted → a.unsettled = false → a.target < a.grant →
        r.grant = a.target ∧ r.epoch = (a.epoch + 1) % 256 ∧ r.inForce = a.inForce ∧ r.unsettled = true ∧ r.deadline = none ∧
          r.standing = a.standing ∧ r.target = a.target) ∧
      (a.standing = .admitted → a.unsettled = false → a.grant ≤ a.target →
        r.grant = a.grant ∧ r.epoch = a.epoch ∧ r.inForce = a.inForce ∧ r.unsettled = false ∧ r.deadline = a.deadline) ∧
      (a.standing ≠ .admitted → r = a) ∧
      (a.standing = .admitted → deficit = true → a.target < a.inForce → r.causes.deficit = true) ∧
      (deficit = false → r.causes = a.causes)) ∧
  (∀ (i : Slot) (s : State), let a := (compute { s with pal := { s.pal with
        pass := .reduce, passPending := false, discarded := false, admits := [], moduleAdmits := [], posting := [], posted := [] } }).pal.slots[i]
      let b := (startPass s).pal.slots[i]
      b.grant = (a.reduce s.pal.deficit).grant ∧ b.epoch = (a.reduce s.pal.deficit).epoch ∧ b.inForce = a.inForce ∧
        b.unsettled = (a.reduce s.pal.deficit).unsettled ∧ b.deadline = (a.reduce s.pal.deficit).deadline ∧
        a.grant = s.pal.slots[i].grant ∧ a.epoch = s.pal.slots[i].epoch ∧ a.inForce = s.pal.slots[i].inForce ∧
        a.unsettled = s.pal.slots[i].unsettled ∧ a.deadline = s.pal.slots[i].deadline ∧ a.standing = s.pal.slots[i].standing) ∧
  (∀ (i : Slot) (s : State), s.phase = .operating → let a := s.pal.slots[i]
      (armDeadlines s).pal.slots[i] = (if a.unsettled = true ∧ a.deadline = none ∧
          (∀ u ∈ s.waitingUpdates, u.off = 0x210 + i.val * 64 → u.kind.mask &&& 0x8FFF87FF#32 = 0#32) then
        { a with deadline := some (s.pal.reduceTimeout * 10) } else a)) ∧
  (∀ (deficit late : Bool) (a : Alloc), a.standing = .admitted → a.unsettled = true →
      (a.target < a.grant →
        (a.reduce deficit).grant = a.target ∧ (a.reduce deficit).epoch = (a.epoch + 1) % 256 ∧
          (a.reduce deficit).inForce = a.inForce ∧ (a.reduce deficit).deadline = a.deadline ∧ (a.reduce deficit).unsettled = true) ∧
      (a.grant ≤ a.target → (a.reduce deficit).grant = a.grant ∧ (a.reduce deficit).epoch = a.epoch ∧
        (a.reduce deficit).inForce = a.inForce ∧ (a.reduce deficit).deadline = a.deadline ∧ (a.reduce deficit).unsettled = true) ∧
      (a.settle late).inForce = a.grant ∧ (a.settle late).unsettled = false ∧ (a.settle late).deadline = none) ∧
  (∀ (i : Slot) (n drawn : Nat) (s : State), s.pal.slots[i].standing = .admitted →
      (s.pal.slots[i].unsettled = true → drawn ≤ s.pal.slots[i].grant →
        let a := (takeDrawn i drawn s.pal.slots[i].epoch s).pal.slots[i]
        a.unsettled = false ∧ a.inForce = s.pal.slots[i].grant ∧ a.deadline = none ∧ a.causes.lateReduce = false) ∧
      (s.pal.slots[i].unsettled = false → s.pal.slots[i].grant < drawn →
        (takeDrawn i drawn s.pal.slots[i].epoch s).pal.slots[i].causes.overdraw = true) ∧
      (∀ echo, echo ≠ s.pal.slots[i].epoch → takeDrawn i drawn echo s = trigger s) ∧
      (Acting .pal s → s.pal.slots[i].unsettled = true → s.pal.slots[i].deadline = some n →
        ∃ u : State, EndsIn (.reduceDeadline i) s s u ∧
          u = { s with pal := u.pal, meu := u.meu, wra := u.wra, held := u.held } ∧ u.meu.shell = s.meu.shell ∧
          u.pal.slots[i].unsettled = false ∧ u.pal.slots[i].inForce = s.pal.slots[i].grant ∧
          u.pal.slots[i].grant = s.pal.slots[i].grant ∧ u.pal.slots[i].causes.lateReduce = true ∧
          u.pal.slots[i].deadline = none ∧
          ∀ j : Slot, j ≠ i → u.pal.slots[j].grant = s.pal.slots[j].grant ∧ u.pal.slots[j].inForce = s.pal.slots[j].inForce ∧
            u.pal.slots[j].unsettled = s.pal.slots[j].unsettled) ∧
      (Acting .pal s → s.pal.slots[i].deadline = none → EndsIn (.reduceDeadline i) s s s))

/-- R123, R116, R121: a pass in RAISE, or one whose computation is discarded, completes once its posted words have all been performed; a
pending pass then starts, and before that none does. PASS_COMPLETE does nothing while no such pass stands (notes/assumptions/10.md).
R123, R117: what a pass has posted in REDUCE goes to the write-back queue before the pass goes on. While an operation of the PAL waits for
room, no pass starts or goes on (R38, notes/assumptions/13.md); otherwise a pass in REDUCE goes on in its event.
R115, R117, R103: a pass that starts names the three figures, the summary word of each slot whose grant it lowers, and word 25 of each
record whose adopted marker it clears; the words it has posted are those it has named for which the event has an update of a field of the
PAL. A word that has been performed counts no longer. -/
def Obligations.PassCompletesOnceItsWordsAreWritten : Prop :=
  (∀ s : State, s.phase = .operating →
    (s.pal.pass = .raise ∨ (s.pal.pass = .reduce ∧ s.pal.discarded = true) → s.pal.posting = [] →
      (s.pal.posted = [] → let u := s.updPal fun p => { p with pass := .idle, discarded := false }
        EndsIn .passComplete s s u ∧ (s.pal.passPending = true → s.acts .pal → palTurn u = startPass u)) ∧
      (s.pal.posted ≠ [] → EndsIn .passComplete s s s) ∧ palTurn s = s) ∧
    (s.pal.pass = .idle ∨ (s.pal.pass = .reduce ∧ s.pal.discarded = false) → EndsIn .passComplete s s s)) ∧
  (∀ (n : Nat) (base s : State), agendaDone s = true → s.pal.reduced = true →
    (s.acts .pal → carry (n + 1) base s = carry n (flush base s) (proceedPass (flush base s))) ∧
    (¬s.acts .pal → carry (n + 1) base s = (base, s))) ∧
  (∀ (s : State) (i : Slot), let t := startPass s
      (∀ off ∈ [0x108, 0x109, 0x10A], off ∈ t.pal.posting) ∧ t.pal.posted = [] ∧
      (t.pal.slots[i].grant < s.pal.slots[i].grant → 0x210 + i.val * 64 ∈ t.pal.posting) ∧
      (s.pal.slots[i].adopted = true → t.pal.slots[i].adopted = false → 0x219 + i.val * 64 ∈ t.pal.posting)) ∧
  (∀ (us : List Update) (s : State) (off : Nat), (takePosting us s).pal.posting = [] ∧
      (off ∈ (takePosting us s).pal.posted ↔
        off ∈ s.pal.posted ∨ (off ∈ s.pal.posting ∧ ∃ u ∈ us, u.off = off ∧
          (0x107 ≤ off ∧ off ≤ 0x10B ∨
            (∃ i : Slot, off = 0x210 + i.val * 64 ∧ u.kind.mask &&& 0x8FFF87FF#32 ≠ 0#32) ∨
            ∃ i : Slot, off = 0x219 + i.val * 64 ∧ u.kind.mask &&& 4#32 ≠ 0#32)))) ∧
  ∀ (u : Update) (off : Nat) (s : State), off ∈ (performWriteBack u s).pal.posted ↔ off ∈ s.pal.posted ∧ off ≠ u.off

/-! ## Cooling (chapter 7) -/

/-- R129, R131, R133: a change of FAN_PRES starts the 20 ms debounce; a fan debounced present enters SPINUP for 5 s, one debounced absent leaves
its position ABSENT at 0 rpm. At the end of a spin-up a fan at or above its zone's minimum is OK, any other FAILED with the probe timer at
30 s; that timer starts a probe, a spin-up of its own. Of what the event leaves alone nothing else changes; an expiry of a timer that is not
running does nothing (notes/assumptions/10.md).
R143: the test that ends a probe at or above the minimum raises FAN_RESTORED with the rate, the one that ends the spin-up of an insertion below
it FAN_FAILED with the rate and bit 16 set; the others raise neither, nor do presence and the probe timer. What the zones lead to,
THERMAL_CRITICAL and COOLING_LOST, stands behind them (the order is notes/assumptions/43.md). -/
def Obligations.FanPresenceAndSpinUps : Prop :=
  ∀ (p : FanPos) (s : State), s.phase = .operating →
    let x := s.clc.fans[p]
    let raises := fun (events : List (Cause × Subject × Word)) (u : State) => RaisedThen events [.thermalCritical, .coolingLost] s u
    (∀ level : Bool, let r := s.updPins fun y => { y with fanPres := y.fanPres.set p level }
      EndsIn (.fanPresenceChange p level) s r (r.updFan p fun f =>
        if x.raw = level then f else { f with raw := level, presence := some 20 })) ∧
    (∀ n : Nat, x.presence = some n → x.raw = true → x.present = false →
      ∃ u : State, EndsIn (.fanPresenceDebounceExpiry p) s s u ∧ raises [] u ∧ u.shell = (s.updFan p fun f =>
        { f with
          presence := none, present := true, lowGates := 0, rpm := 0, tach := 0, state := .spinup, probe := false, spin := some 5000
          probeTimer := none }).shell) ∧
    (∀ n : Nat, x.presence = some n → x.raw = false → x.present = true →
      ∃ u : State, EndsIn (.fanPresenceDebounceExpiry p) s s u ∧ raises [] u ∧ u.shell = (s.updFan p fun f =>
        { f with
          presence := none, present := false, lowGates := 0, rpm := 0, state := .absent, probe := false, spin := none
          probeTimer := none }).shell) ∧
    (∀ n : Nat, x.presence = some n → x.raw = x.present →
      EndsIn (.fanPresenceDebounceExpiry p) s s (s.updFan p fun f => { f with presence := none })) ∧
    (∀ n : Nat, x.state = .spinup → x.spin = some n →
      ∃ u : State, EndsIn (.spinUpEnd p) s s u ∧
        raises (if s.clc.zones[fanZone p].minRpm ≤ x.rpm then (if x.probe then [(.fanRestored, .fan p, putField 0 x.rpm)] else [])
          else if x.probe then [] else [(.fanFailed, .fan p, putField 0 x.rpm ||| putField 16 1)]) u ∧
        u.shell = (s.updFan p fun f =>
          if s.clc.zones[fanZone p].minRpm ≤ x.rpm then { f with state := .ok, probe := false, lowGates := 0, spin := none }
          else { f with state := .failed, probe := false, lowGates := 0, spin := none, probeTimer := some 30000 }).shell) ∧
    (∀ n : Nat, x.state = .failed → x.probeTimer = some n →
      ∃ u : State, EndsIn (.probeTimerExpiry p) s s u ∧ raises [] u ∧ u.shell = (s.updFan p fun f =>
        { f with state := .spinup, probe := true, spin := some 5000, probeTimer := none }).shell) ∧
    (x.presence = none → EndsIn (.fanPresenceDebounceExpiry p) s s s) ∧
    (x.spin = none → EndsIn (.spinUpEnd p) s s s) ∧
    (x.probeTimer = none → EndsIn (.probeTimerExpiry p) s s s)

/-- R130, R132: a gate end takes each position's edges as 30 rpm each, up to 255 edges; an OK fan that has been driven at 20 % or more for
the whole gate and turns below its zone's minimum for three gates fails. Of what the event leaves alone only the fans change, and FAN_TACH,
which goes on as the gate has shown it: the operand of the row counts the edges that no tick has counted yet (the model's reading,
notes/assumptions/6.md).
R130: each tick counts the edges of its line, saturating at 255, an ABSENT position none; over the 1,000 ticks of a gate they are the
line's edges.
R143: each fan that fails at the gate raises FAN_FAILED with its rate and bit 16 clear (that they stand in the order 1A to 4B, and what the zones
lead to behind them, is notes/assumptions/43.md). -/
def Obligations.GateEndJudgesEveryFan : Prop :=
  (∀ (edges : Vector Nat 8) (s : State), s.phase = .operating →
    let rate := fun p : FanPos => if s.clc.fans[p].state = .absent then 0 else min 255 (s.clc.fans[p].tach + edges[p]) * 30
    let fails := fun p : FanPos => s.clc.fans[p].state = .ok ∧ s.clc.fans[p].driven = true ∧
      rate p < s.clc.zones[fanZone p].minRpm ∧ 2 ≤ s.clc.fans[p].lowGates
    let r := s.updPins fun x => { x with fanTach := gateRates edges s.clc }
    ∃ t : State, EndsIn (.tachGateEnd edges) s r t ∧
      RaisedThen ((allFans.filter fun p => fails p).map fun p => (.fanFailed, .fan p, putField 0 (rate p)))
        [.thermalCritical, .coolingLost] r t ∧
      t.shell = { r with clc := { s.clc with fans := t.clc.fans } }.shell ∧
      ∀ p : FanPos,
        let rpm := rate p
        let slow := s.clc.fans[p].driven = true ∧ rpm < s.clc.zones[fanZone p].minRpm
        t.pins.fanTach[p] = s.clc.fans[p].tach + edges[p] ∧
        t.clc.fans[p].rpm = rpm ∧ t.clc.fans[p].tach = 0 ∧ t.clc.fans[p].raw = s.clc.fans[p].raw ∧
        t.clc.fans[p].present = s.clc.fans[p].present ∧
        (s.clc.fans[p].state = .ok → slow → 2 ≤ s.clc.fans[p].lowGates →
          t.clc.fans[p].state = .failed ∧ t.clc.fans[p].probeTimer = some 30000) ∧
        (s.clc.fans[p].state = .ok → slow → s.clc.fans[p].lowGates < 2 →
          t.clc.fans[p].state = .ok ∧ t.clc.fans[p].lowGates = s.clc.fans[p].lowGates + 1) ∧
        (s.clc.fans[p].state = .ok → ¬slow → t.clc.fans[p].state = .ok ∧ t.clc.fans[p].lowGates = 0) ∧
        (s.clc.fans[p].state ≠ .ok → t.clc.fans[p].state = s.clc.fans[p].state)) ∧
  (∀ (p : FanPos) (s : State), (countEdges s).clc.fans[p] = { s.clc.fans[p] with
      tach := if s.clc.fans[p].state = .absent then s.clc.fans[p].tach
        else min 255 (s.clc.fans[p].tach + edgesAt s.pins.fanTach[p] s.clc.gate) }) ∧
  ∀ rate : Nat, ((List.range 1000).map (edgesAt rate)).sum = rate

/-- R134, R135, R139: a freshness timer that runs out leaves a member to the largest duty of its curve, its readings kept, and one that is
not running does nothing (notes/assumptions/10.md); a control period
lowers each zone's applied duty towards its target by the slew, and no further. Either event is the CLC's alone; it may raise
THERMAL_CRITICAL and COOLING_LOST, which follow from the fans and readings as they stand, and no other event. A CONTROL_PERIOD
command begins the period again (the model's reading of the row, notes/assumptions/6.md). -/
def Obligations.FreshnessAndControlPeriods : Prop :=
  (∀ (i : Slot) (s : State), s.phase = .operating →
    (∀ n : Nat, s.clc.slots[i].fresh = some n →
      ∃ u : State, EndsIn (.freshnessTimerExpiry i) s s u ∧
        u = { s with clc := u.clc, meu := u.meu, wra := u.wra, agenda := u.agenda, held := u.held } ∧
        RaisedThen [] [.thermalCritical, .coolingLost] s u ∧ u.meu.shell = s.meu.shell ∧
        u.clc.slots[i].fresh = none ∧ u.clc.slots[i].readings = s.clc.slots[i].readings ∧
        (∀ j : Slot, j ≠ i → u.clc.slots[j].fresh = s.clc.slots[j].fresh ∧ u.clc.slots[j].readings = s.clc.slots[j].readings) ∧
        (s.clc.slots[i].member = true → u.clc.slots[i].demand = some s.clc.zones[zoneOf i].dMax)) ∧
    (s.clc.slots[i].fresh = none → EndsIn (.freshnessTimerExpiry i) s s s)) ∧
  ∀ s : State, s.phase = .operating →
    ∃ u : State, EndsIn .controlPeriod s s u ∧
      u = { s with clc := u.clc, meu := u.meu, wra := u.wra, agenda := u.agenda, held := u.held } ∧
      RaisedThen [] [.thermalCritical, .coolingLost] s u ∧ u.meu.shell = s.meu.shell ∧
      u.clc.shell = { s.clc with gate := 0 }.shell ∧
      ∀ z : Zone, u.clc.zones[z].applied =
        max u.clc.zones[z].target
          (if s.clc.zones[z].target < s.clc.zones[z].applied then
            max s.clc.zones[z].target (s.clc.zones[z].applied - s.clc.zones[z].slew)
          else s.clc.zones[z].applied)

/-- R134, R136: each of the two thermal words is taken with the freshness at 10 s: its low half is the first of its two readings and its high
half the second, 0x8000 as absent, and the other word's readings stay, as the CLC holds them (notes/assumptions/46.md); a member's qualifying
reading puts its zone at 100 %.
R134: the readings considered are the first k for a sensor count k, none for a count of 0, and all four without an active profile; h is the
highest of them that is present.
R135: a slot outside the member set has no demand; a member's is D_max while its readings are stale or it has no h; else D_min up to
T_low, D_max from T_high on, and between them D_min plus the slope, rounded up to a whole percent. A T_high not above T_low is taken as
T_low + 1, a D_min above D_max as D_max.
R136, R137, R138: after whatever forms the cooling again, a zone is critical exactly where a member of it has a present considered reading at or
above T_crit. The target is 100 while it is critical, and otherwise the largest of the floor duty, the members' demands and, while the zone's
module is powered, the module floor; the applied duty rises with it. A zone that becomes critical raises THERMAL_CRITICAL with the slot,
the sensor and the reading of the highest qualifying reading, the lowest slot and then the lowest sensor among equals; a zone whose factor
falls to 0 raises COOLING_LOST with the number of fans present (the order among them is notes/assumptions/43.md).
R141, R142: each factor that changes is handed to the PAL, and then the reservation where it changes.
R140, R141, R142: the drive of a fan, the cooling factor of a zone and the reservation, after whatever forms the cooling again. The
reservation is the sum of the shares, rounded up to a whole 10 W: for every fan position that is not ABSENT the fan watts of its zone times
the cube of its drive, over 1,000,000 and rounded up. -/
def Obligations.CoolingFollowsReadingsAndFans : Prop :=
  (∀ (i : Slot) (which : ThermalWord) (w : Word) (s : State),
      let t := takeReadings i which w s
      let reading := fun h : Nat => if h = 0x8000 then none else some (signed16 h)
      let old := s.clc.slots[i].readings
      t.clc.slots[i].fresh = some 10000 ∧
      t.clc.slots[i].readings = (match which with
        | .first => #v[reading (getField w 0 16), reading (getField w 16 16), old[2], old[3]]
        | .second => #v[old[0], old[1], reading (getField w 0 16), reading (getField w 16 16)]) ∧
      (∀ lo ∈ [0, 16], s.clc.slots[i].member = true → s.clc.slots[i].sensors = none → getField w lo 16 ≠ 0x8000 →
        s.clc.zones[zoneOf i].tCrit ≤ signed16 (getField w lo 16) →
        t.clc.zones[zoneOf i].critical = true ∧ t.clc.zones[zoneOf i].target = 100)) ∧
  (let seen := fun (t : Thermal) (k : Fin 4) (x : Int) => t.readings[k] = some x ∧ ∀ n : Nat, t.sensors = some n → k.val < n;
    (∀ t : Thermal, (∀ h : Int, t.highest = some h ↔ (∃ k, seen t k h) ∧ ∀ k x, seen t k x → x ≤ h) ∧
      (t.highest = none ↔ ∀ k x, ¬seen t k x)) ∧
    (∀ (z : ZoneState) (t : Thermal), (t.member = false → slotDemand z t = none) ∧
      (t.member = true → t.fresh = none ∨ t.highest = none → slotDemand z t = some z.dMax) ∧
      ∀ (n : Nat) (h : Int), t.member = true → t.fresh = some n → t.highest = some h →
        let low := min z.dMin z.dMax
        let tHigh := if z.tHigh ≤ z.tLow then z.tLow + 1 else z.tHigh
        ∃ d : Nat, slotDemand z t = some d ∧
          (if h ≤ z.tLow then d = low
          else if tHigh ≤ h then d = z.dMax
          else low ≤ d ∧ (h - z.tLow) * ((z.dMax - low : Nat) : Int) ≤ ((d - low : Nat) : Int) * (tHigh - z.tLow) ∧
            ((d - low : Nat) : Int) * (tHigh - z.tLow) < (h - z.tLow) * ((z.dMax - low : Nat) : Int) + (tHigh - z.tLow))) ∧
    ∀ s : State, let t := formCooling s
      let qualifies := fun (z : Zone) (i : Slot) (k : Fin 4) (x : Int) =>
        zoneOf i = z ∧ s.clc.slots[i].member = true ∧ seen s.clc.slots[i] k x ∧ s.clc.zones[z].tCrit ≤ x
      (∀ i : Slot, t.clc.slots[i] = { s.clc.slots[i] with demand := slotDemand s.clc.zones[zoneOf i] s.clc.slots[i] }) ∧
      (∀ z : Zone, let y := t.clc.zones[z]
        (y.critical = true ↔ ∃ i k x, qualifies z i k x) ∧ y.applied = max s.clc.zones[z].applied y.target ∧
        (y.critical = true → y.target = 100) ∧
        (y.critical = false →
          let inputs := fun d : Nat => d = s.clc.zones[z].floorDuty ∨
            (s.clc.zones[z].modulePowered = true ∧ d = s.clc.moduleFloor) ∨ ∃ i : Slot, zoneOf i = z ∧ t.clc.slots[i].demand = some d
          inputs y.target ∧ ∀ d : Nat, inputs d → d ≤ y.target)) ∧
      (∃ detail : Zone → Word,
        RaisedAll
          (((allZones.filter fun z => t.clc.zones[z].critical && !s.clc.zones[z].critical).map fun z => (.thermalCritical, .zone z, detail z)) ++
            ((allZones.filter fun z => t.clc.zones[z].factor == 0 && s.clc.zones[z].factor != 0).map fun z =>
              (.coolingLost, .zone z, putField 0 ((zoneFans z).filter fun p => s.clc.fans[p].state != .absent).length))) s t ∧
        ∀ z : Zone, t.clc.zones[z].critical = true → ∃ i k x, qualifies z i k x ∧
          detail z = putField 0 (i.val + 1) ||| putField 8 (k.val + 1) ||| putField 16 (bits16 x) ∧
          ∀ j l y, qualifies z j l y → y ≤ x ∧ (y = x → i < j ∨ (i = j ∧ k ≤ l))) ∧
      t.agenda = s.agenda ++
        ((allZones.filter fun z => t.clc.zones[z].factor != s.clc.zones[z].factor).map fun z => Msg.palCooling z t.clc.zones[z].factor) ++
        (if t.clc.reservation = s.clc.reservation then [] else [.palReservation t.clc.reservation])) ∧
  (∀ s : State, let t := formCooling s
      (∀ z : Zone, t.clc.zones[z].factor =
        (match ((zoneFans z).filter fun p => s.clc.fans[p].state == .ok).length with
          | 0 => 0
          | 1 => 60
          | _ => 100)) ∧
      (∀ p : FanPos, t.clc.fans[p].state = s.clc.fans[p].state ∧ t.clc.fans[p].drive =
        (match s.clc.fans[p].state with
          | .absent => 0
          | .spinup | .failed => 100
          | .ok => if s.clc.fans[fanPartner p].state = .spinup ∨ s.clc.fans[fanPartner p].state = .failed then 100
            else t.clc.zones[fanZone p].applied)) ∧
      t.clc.reservation = ((allFans.map fun p => if s.clc.fans[p].state = .absent then 0
        else (s.clc.zones[fanZone p].fanWatts * (t.clc.fans[p].drive * t.clc.fans[p].drive * t.clc.fans[p].drive) + 999999) / 1000000).sum +
          9) / 10 * 10)

/-! ## Uplinks (chapter 8) -/

/-- R148, R151: MOD_PG and the power timer. In POWERING the first good reading enters LINK_DOWN and stops the timer; its expiry faults the
bay with POWER_TIMEOUT; a loss in a powered state past POWERING faults it with MOD_PG, and the bay has no members. In any other state the
line is only kept as read, and a timer that is not running does nothing (notes/assumptions/10.md).
R152: an entry to FAULT raises one UPLINK_DOWN with the state code 8, the members at the departure from UP (none from another state) and the
flap count; only SLOT_PARKED of those members stands behind it. The entry to LINK_DOWN raises nothing. -/
def Obligations.ModulePowerGoodActs : Prop :=
  ∀ (b : UplinkBay) (s : State), s.phase = .operating →
    let x := s.ulc.bays[b]
    let good := s.updPins fun p => { p with modPg := p.modPg.set b true }
    let bad := s.updPins fun p => { p with modPg := p.modPg.set b false }
    (x.state = .powering →
      ∃ u : State, EndsIn (.modPgGood b) s good u ∧ UplinkEvent b good u ∧ NotRaised good u ∧
        u.ulc.bays[b].state = .linkDown ∧ u.ulc.bays[b].power = none ∧ u.ulc.bays[b].modPg = true ∧
        u.ulc.bays[b].link = if x.linkUp then some (s.ulc.upDebounce * 10) else none) ∧
    (x.state ≠ .powering →
      ∃ u : State, EndsIn (.modPgGood b) s good u ∧ UplinkEvent b good u ∧ NotRaised good u ∧
        u.ulc.bays[b] = { x with modPg := true }) ∧
    (x.state ∈ [.linkDown, .up, .held] → x.modPg = true →
      ∃ u : State, EndsIn (.modPgLost b) s bad u ∧ UplinkEvent b bad u ∧
        (let members := if x.state = .up then x.members.length else 0;
          RaisedThen [(.uplinkDown, .uplink b, putField 0 8 ||| putField 8 members ||| putField 16 x.flap)]
            (if x.state = .up then [.slotParked] else []) bad u) ∧
        u.ulc.bays[b].state = .fault ∧ u.ulc.bays[b].reason = .modPg ∧ u.ulc.bays[b].members = [] ∧
        u.ulc.bays[b].link = none ∧ u.ulc.bays[b].decay = none ∧ u.ulc.bays[b].power = none) ∧
    (x.state ∉ [.linkDown, .up, .held] ∨ x.modPg = false →
      ∃ u : State, EndsIn (.modPgLost b) s bad u ∧ UplinkEvent b bad u ∧ NotRaised bad u ∧
        u.ulc.bays[b] = { x with modPg := false }) ∧
    (∀ n : Nat, x.state = .powering → x.power = some n →
      ∃ u : State, EndsIn (.powerTimerExpiry b) s s u ∧ UplinkEvent b s u ∧
        Raised .uplinkDown (.uplink b) (putField 0 8 ||| putField 16 x.flap) s u ∧ u.ulc.bays[b].state = .fault ∧
        u.ulc.bays[b].reason = .powerTimeout ∧ u.ulc.bays[b].power = none) ∧
    (x.power = none → EndsIn (.powerTimerExpiry b) s s s)

/-- R149, R150: the link of a powered module. A rise in LINK_DOWN and a fall in UP or HELD start their debounces, and the opposite reading stops
them; a rise that lasts enters UP, or HELD under the held marker; a drop adds 8 to the flap count and sets the marker at 32; the decay takes
one off and frees a held bay below 16, while one whose count stays at 16 or above stays held and its timer runs again. A debounce or
decay that is not running does nothing (notes/assumptions/10.md).
R152: an entry to UP raises UPLINK_UP with the flap count, and bit 8 set from HELD; an entry to HELD UPLINK_HELD with the flap count; a drop
from UP UPLINK_DOWN with the code 5, the members and the new count, SLOT_PARKED of those members behind it. No reading, no drop from HELD and
no decay that leaves the state as it is raises an event. -/
def Obligations.LinkDebounceAndFlapCount : Prop :=
  ∀ (b : UplinkBay) (s : State), s.phase = .operating →
    let x := s.ulc.bays[b]
    let rise := s.updPins fun p => { p with linkUp := p.linkUp.set b true }
    let fall := s.updPins fun p => { p with linkUp := p.linkUp.set b false }
    (x.link = none →
      (∃ u : State, EndsIn (.linkUpChange b true) s rise u ∧ UplinkEvent b rise u ∧ NotRaised rise u ∧
        u.ulc.bays[b] =
          { x with linkUp := true, link := if x.state = .linkDown then some (s.ulc.upDebounce * 10) else none }) ∧
      ∃ u : State, EndsIn (.linkUpChange b false) s fall u ∧ UplinkEvent b fall u ∧ NotRaised fall u ∧
        u.ulc.bays[b] =
          { x with
            linkUp := false
            link := if x.state = .up ∨ x.state = .held then some (s.ulc.downDebounce * 10) else none }) ∧
    (∀ n : Nat, x.link = some n → x.state = .linkDown →
      ∃ u : State, EndsIn (.linkUpChange b false) s fall u ∧ UplinkEvent b fall u ∧ NotRaised fall u ∧
        u.ulc.bays[b] = { x with linkUp := false, link := none }) ∧
    (∀ n : Nat, x.link = some n → x.state = .up ∨ x.state = .held →
      ∃ u : State, EndsIn (.linkUpChange b true) s rise u ∧ UplinkEvent b rise u ∧ NotRaised rise u ∧
        u.ulc.bays[b] = { x with linkUp := true, link := none }) ∧
    (∀ n : Nat, x.state = .linkDown → x.link = some n →
      ∃ u : State, EndsIn (.linkUpDebounceExpiry b) s s u ∧ UplinkEvent b s u ∧
        (if x.held then Raised .uplinkHeld (.uplink b) (putField 0 x.flap) s u else Raised .uplinkUp (.uplink b) (putField 0 x.flap) s u) ∧
        u.ulc.bays[b].state = (if x.held then .held else .up) ∧ u.ulc.bays[b].flap = x.flap ∧
        u.ulc.bays[b].decay = some 10000) ∧
    (∀ n : Nat, x.state = .up → s.ulc.mode ≠ .quiesce → x.link = some n →
      ∃ u : State, EndsIn (.linkDownDebounceExpiry b) s s u ∧ UplinkEvent b s u ∧
        RaisedThen
          [(.uplinkDown, .uplink b, putField 0 5 ||| putField 8 x.members.length ||| putField 16 (min 255 (x.flap + 8)))]
          [.slotParked] s u ∧
        u.ulc.bays[b].state = .linkDown ∧ u.ulc.bays[b].flap = min 255 (x.flap + 8) ∧ u.ulc.bays[b].members = [] ∧
        u.ulc.bays[b].held = (x.held || decide (32 ≤ min 255 (x.flap + 8)))) ∧
    (∀ n : Nat, x.state = .held → x.link = some n →
      ∃ u : State, EndsIn (.linkDownDebounceExpiry b) s s u ∧ UplinkEvent b s u ∧ NotRaised s u ∧
        u.ulc.bays[b].state = .linkDown ∧ u.ulc.bays[b].flap = min 255 (x.flap + 8) ∧
        u.ulc.bays[b].held = (x.held || decide (32 ≤ min 255 (x.flap + 8)))) ∧
    (∀ n : Nat, x.state = .up → x.decay = some n →
      ∃ u : State, EndsIn (.flapDecayExpiry b) s s u ∧ UplinkEvent b s u ∧ NotRaised s u ∧
        u.ulc.bays[b] = { x with
          flap := x.flap - 1, held := x.held && decide (16 ≤ x.flap - 1), decay := some 10000 }) ∧
    (∀ n : Nat, x.state = .held → x.decay = some n → 16 ≤ x.flap - 1 →
      ∃ u : State, EndsIn (.flapDecayExpiry b) s s u ∧ UplinkEvent b s u ∧ NotRaised s u ∧
        u.ulc.bays[b] = { x with flap := x.flap - 1, decay := some 10000 }) ∧
    (∀ n : Nat, x.state = .held → x.decay = some n → x.flap - 1 < 16 →
      ∃ u : State, EndsIn (.flapDecayExpiry b) s s u ∧ UplinkEvent b s u ∧
        Raised .uplinkUp (.uplink b) (putField 0 (x.flap - 1) ||| putField 8 1) s u ∧ u.ulc.bays[b].state = .up ∧
        u.ulc.bays[b].held = false ∧ u.ulc.bays[b].flap = x.flap - 1) ∧
    (x.link = none → EndsIn (.linkUpDebounceExpiry b) s s s ∧
      EndsIn (.linkDownDebounceExpiry b) s s s) ∧
    (x.decay = none → EndsIn (.flapDecayExpiry b) s s s)

/-- R154, R160: the settle timer. A member that settles is ATTACHED, and its crossbar then selects its uplink; a detaching slot's settle
reports the detach done; a timer that is not running does nothing (notes/assumptions/10.md).
R160: a detach request takes the slot off its list and off the wait list, in every attach state, and it is DETACHED. For an ATTACHED slot the
settle timer starts with purpose detach, and nothing is answered yet; for any other, SETTLING, waiting or DETACHED, no timer runs and
detach done is sent at once. -/
def Obligations.SettleTimerAttachesOrReports : Prop :=
  (∀ (i : Slot) (s : State), let p := s.ulc.slots[i]
    let t := takeDetach i s
    t.ulc.slots[i] = { p with
      inRun := false, attach := .detached, uplink := none, counted := 0
      settle := if p.attach = .attached then some { detach := true, left := s.ulc.settleTime } else none } ∧
    i ∉ t.ulc.wait ∧ (∀ b : UplinkBay, p.uplink = some b → i ∉ t.ulc.bays[b].members) ∧
    ∃ more : List Msg, t.agenda = s.agenda ++ more ∧ Msg.ssqDetachDone i ∉ more.drop 1 ∧
      (p.attach = .attached → Msg.ssqDetachDone i ∉ more) ∧ (p.attach ≠ .attached → more.head? = some (.ssqDetachDone i))) ∧
  ∀ (i : Slot) (n : Nat) (b : UplinkBay) (s : State), s.phase = .operating →
    (s.ulc.slots[i].settle = some { detach := false, left := n } → s.ulc.slots[i].uplink = some b →
      ∃ u : State, EndsIn (.settleTimerExpiry i) s s u ∧
        u = s.updPlacement i (fun p => { p with settle := none, attach := .attached }) ∧
        (Rested s → (ends s u).outs.xsel[i] = some b)) ∧
    (s.ulc.slots[i].settle = some { detach := true, left := n } →
      EndsIn (.settleTimerExpiry i) s s ((s.updPlacement i fun p => { p with settle := none }).push (.ssqDetachDone i))) ∧
    (s.ulc.slots[i].settle = none → EndsIn (.settleTimerExpiry i) s s s)

/-- R153, R154, R156–R160, R179: the laws of capacity and membership. No step of the part breaks them: no list comes to exceed its module's
figures, no slot stands on two lists or on a list and waiting, and only an UP bay has members. Nor does any single act of the ULC: an
uplink's lines, timers, presence, verdict, power-on and clear command, a detach, a drop, a removal, an entry to RUN, a new preference list, a
new weight and a new mode.
R158: whenever an UP bay leaves UP, its members, oldest first, each find another uplink or wait; none is left on the list, and every
member with a preference list stands on another list or waits.
R153, R156: a slot that enters RUN joins, in OPERATE, the first uplink of its list that is UP and has room, SETTLING (`JoinedList`); it waits
with SLOT_PARKED where none has (NO_ROOM) or in another mode (MODE); with an empty list it stays DETACHED.
R157, R161: a walk, in OPERATE alone, takes the wait list once, head to tail, each slot to the first uplink that takes it; it runs at the
change to OPERATE, at a new list of a waiting slot, and when a member leaves. R155: what a new list does.
R159: as an uplink enters UP in OPERATE under RETURN, the waiting slots that prefer it first join it in their order, then the members of
other uplinks that do, in slot order, and a walk follows; under STAY the walk alone.
R162: in QUIESCE a powered bay without members is switched off, its count and marker kept: at the change to QUIESCE, as its last
member leaves, and as it drops; otherwise none is. (The order A to D: notes/assumptions/35.md.) -/
def Obligations.UplinkEventsKeepMembership : Prop :=
  (∀ s t : State, MembershipLaw s → step s = .next t → MembershipLaw t) ∧
  (∀ (b : UplinkBay) (i : Slot) (s : State), MembershipLaw s →
      MembershipLaw (walk s) ∧ MembershipLaw (linkUpExpiry b s) ∧ MembershipLaw (linkDownExpiry b s) ∧
      MembershipLaw (readModPgGood b s) ∧ MembershipLaw (readModPgBad b s) ∧ MembershipLaw (powerExpiry b s) ∧
      MembershipLaw (flapDecayExpiry b s) ∧ MembershipLaw (uplinkClear b s) ∧ MembershipLaw (takeDetach i s) ∧
      MembershipLaw (takeDrop i s) ∧ MembershipLaw (settleExpiry i s) ∧ MembershipLaw (takeRunEntry i s) ∧
      MembershipLaw (takeUplinkRemoval i s) ∧ MembershipLaw (takePowerOn b s) ∧
      (∀ prefs : List UplinkBay, MembershipLaw (takePrefs i prefs s)) ∧ (∀ w : Option Nat, MembershipLaw (takeWeight i w s)) ∧
      (∀ m : Mode, MembershipLaw (takeUplinkMode m s)) ∧ (∀ f : Option ModuleFigures, MembershipLaw (takeUplinkVerdict b f s)) ∧
      (∀ present : Bool, MembershipLaw (takeUplinkPresence b present s))) ∧
  (∀ (b : UplinkBay) (new : UplinkState) (s : State), s.ulc.bays[b].state = .up → new ≠ .up →
      (∀ f : Uplink → Uplink, ∃ v : State, (∀ i ∈ s.ulc.bays[b].members, v.ulc.slots[i].uplink = none) ∧
        setBay b new f s = s.ulc.bays[b].members.foldl (fun s i => placeOrPark i (some b) s) v) ∧
      (MembershipLaw s → ∀ f : Uplink → Uplink, (∀ u, (f u).members = u.members ∧ (f u).state = u.state) →
        (setBay b new f s).ulc.bays[b].members = [] ∧
          ∀ i ∈ s.ulc.bays[b].members, s.ulc.slots[i].prefs ≠ [] →
            (∃ c, (setBay b new f s).ulc.slots[i].uplink = some c ∧ c ≠ b) ∨ i ∈ (setBay b new f s).ulc.wait)) ∧
  ((∀ (u : Ulc) (b : UplinkBay) (i : Slot), u.takes b i = true ↔
      u.bays[b].state = .up ∧ (u.bays[b].members.map fun j => u.slots[j].counted).sum + u.slots[i].weight.getD 4 ≤ u.bays[b].figures.capacity ∧
        u.bays[b].members.length < u.bays[b].figures.maxMembers) ∧
    (∀ (b : UplinkBay) (i : Slot) (s : State), JoinedList b i s (joinList b i s) ∧ (joinList b i s).ulc.wait = s.ulc.wait) ∧
    ∀ (i : Slot) (s : State), s.ulc.slots[i].uplink = none → i ∉ s.ulc.wait →
      let v := s.updPlacement i fun p => { p with inRun := true }
      let first := s.ulc.slots[i].prefs.find? fun b => s.ulc.takes b i
      (s.ulc.slots[i].prefs = [] → takeRunEntry i s = v) ∧
      (s.ulc.slots[i].prefs ≠ [] → s.ulc.mode ≠ .operate → Parked i 2 v (takeRunEntry i s)) ∧
      (s.ulc.slots[i].prefs ≠ [] → s.ulc.mode = .operate → first = none → Parked i 1 v (takeRunEntry i s)) ∧
      ∀ b : UplinkBay, s.ulc.mode = .operate → first = some b →
        JoinedList b i v (takeRunEntry i s) ∧ (takeRunEntry i s).ulc.wait = s.ulc.wait ∧ NotRaised s (takeRunEntry i s)) ∧
  ((∀ s : State, (s.ulc.mode ≠ .operate → walk s = s) ∧
      (s.ulc.mode = .operate → walk s = s.ulc.wait.foldl (fun s i => walkSlot i s) s)) ∧
    (∀ (i : Slot) (s : State), let first := s.ulc.slots[i].prefs.find? fun b => s.ulc.takes b i
      (first = none → walkSlot i s = s) ∧
      ∀ b : UplinkBay, first = some b → JoinedList b i s (walkSlot i s) ∧ (walkSlot i s).ulc.wait = s.ulc.wait.filter (· != i)) ∧
    (∀ s : State, takeUplinkMode .operate s = walk { s with ulc := { s.ulc with mode := .operate } } ∧
      takeUplinkMode .configure s = { s with ulc := { s.ulc with mode := .configure } }) ∧
    (∀ (i : Slot) (b : UplinkBay) (s : State), s.ulc.slots[i].uplink = some b → s.ulc.mode ≠ .quiesce →
      ∃ v : State, takeDrop i s = walk v ∧ v.ulc.slots[i].uplink = none ∧ v.ulc.slots[i].attach = .detached ∧
        v.ulc.slots[i].settle = none ∧ v.ulc.wait = s.ulc.wait.filter (· != i) ∧
        v.ulc.bays[b] = { s.ulc.bays[b] with members := s.ulc.bays[b].members.filter (· != i) }) ∧
    ∀ (i : Slot) (prefs : List UplinkBay) (s : State), let v := s.updPlacement i fun p => { p with prefs := prefs }
      (s.ulc.slots[i].uplink ≠ none → takePrefs i prefs s = v) ∧
      (s.ulc.slots[i].uplink = none → i ∈ s.ulc.wait →
        takePrefs i prefs s = (if prefs = [] then { v with ulc := { v.ulc with wait := v.ulc.wait.filter (· != i) } } else walk v)) ∧
      (s.ulc.slots[i].uplink = none → i ∉ s.ulc.wait →
        takePrefs i prefs s = (if s.ulc.slots[i].inRun then takeRunEntry i v else v))) ∧
  (∀ (b : UplinkBay) (s : State),
      (s.ulc.bays[b].link ≠ none → s.ulc.bays[b].state = .linkDown → s.ulc.bays[b].held = false →
        ∃ v : State, linkUpExpiry b s = returnTo b v ∧ v.ulc.bays[b].state = .up ∧ v.ulc.bays[b].members = [] ∧
          v.ulc.wait = s.ulc.wait ∧ v.ulc.slots = s.ulc.slots ∧ ∀ c : UplinkBay, c ≠ b → v.ulc.bays[c] = s.ulc.bays[c]) ∧
      (s.ulc.mode ≠ .operate → returnTo b s = s) ∧
      (s.ulc.mode = .operate → s.ulc.failback = false → returnTo b s = walk s) ∧
      (s.ulc.mode = .operate → s.ulc.failback = true → returnTo b s = walk (failback b s)) ∧
      let fits := fun (i : Slot) (s : State) => s.ulc.slots[i].prefs.head? = some b ∧ s.ulc.hasRoom b i = true
      failback b s = allSlots.foldl
        (fun s i => if (∃ c, s.ulc.slots[i].uplink = some c ∧ c ≠ b) ∧ fits i s then joinList b i (leaveList i s) else s)
        (s.ulc.wait.foldl (fun s i => if fits i s then joinList b i (leaveWait i s) else s) s)) ∧
  ∀ (b : UplinkBay) (s : State),
      let idle := fun (s : State) (b : UplinkBay) =>
        s.ulc.bays[b].state ∈ [.powering, .linkDown, .up, .held] ∧ s.ulc.bays[b].members = []
      let off := fun t : State => t.ulc.bays[b].state = .off ∧ t.ulc.bays[b].flap = s.ulc.bays[b].flap ∧
        t.ulc.bays[b].held = s.ulc.bays[b].held ∧ t.ulc.bays[b].members = []
      (if s.ulc.mode = .quiesce ∧ idle s b then off (switchOff b s) ∧ ∀ c : UplinkBay, c ≠ b → (switchOff b s).ulc.bays[c] = s.ulc.bays[c]
        else switchOff b s = s) ∧
      (if idle s b then off (takeUplinkMode .quiesce s) else (takeUplinkMode .quiesce s).ulc.bays[b] = s.ulc.bays[b]) ∧
      (∀ i : Slot, s.ulc.mode = .quiesce → s.ulc.slots[i].uplink = some b → s.ulc.bays[b].members = [i] → s.ulc.bays[b].state = .up →
        off (takeDetach i s) ∧ off (takeDrop i s)) ∧
      (s.ulc.mode = .quiesce → s.ulc.bays[b].link ≠ none → s.ulc.bays[b].state = .up →
        (linkDownExpiry b s).ulc.bays[b].state = .off ∧ (linkDownExpiry b s).ulc.bays[b].flap = min 255 (s.ulc.bays[b].flap + 8) ∧
          (linkDownExpiry b s).ulc.bays[b].members = [])

/-! ## Modes and events (chapter 9) -/

/-- R169, R65: CLOCK_SECOND advances the clock one second and carries, wrapping after 65,535 days 23:59:59; the sub-second count begins
again, and the days and the time are published as one update each. While the clock's own publication waits for room the second waits behind it
(R38, notes/assumptions/13.md). A wrap of the blink counter puts it at 0, and a phase boundary moves it to
the next one of its patterns, modulo 2,000; the LED lines then show each slot's pattern at the new count. The row names no count, so
which boundary an edge means is the model's choice (notes/assumptions/2.md).
00_scope, Time: a chassis tick on an empty queue (the model's choice, notes/assumptions/6.md). Every running timer counts down by one;
each that has run out then acts as the command of its row does, in a fixed order (`dueRows`); then the lines are read; and in the tick's last
event the reader may begin an attempt, the blink counter, the sub-second count, the tach counters and the gate each advance. -/
def Obligations.ClockBlinkCounterAndTimersAdvance : Prop :=
  (∀ s : State, Acting (.word 0x104) s →
    let u := ((s.updMeu fun m => { m with sub := 0, clock := m.clock.advance }).forceWord 0x103).forceWord 0x104
    EndsIn .clockSecond s s u ∧ (ends s u).meu.clock = s.meu.clock.advance ∧
    (Rested s → s.wra.queue = [] → s.wra.waiting = [] → s.held = [] → let c := s.meu.clock.advance
      { off := 0x103, kind := .whole (putField 0 c.days) } ∈ (ends s u).wra.queue ∧
      { off := 0x104, kind := .whole (putField 0 c.hours ||| putField 8 c.minutes ||| putField 16 c.seconds) } ∈ (ends s u).wra.queue)) ∧
  (∀ c : Clock, c.days < 65536 → c.hours < 24 → c.minutes < 60 → c.seconds < 60 →
    let total := fun c : Clock => ((c.days * 24 + c.hours) * 60 + c.minutes) * 60 + c.seconds
    total c.advance = (total c + 1) % (65536 * 86400) ∧ c.advance.hours < 24 ∧ c.advance.minutes < 60 ∧ c.advance.seconds < 60) ∧
  (∀ s : State, s.phase = .operating →
    (let u := { s with ssq := { s.ssq with blink := 0 } }; let t := ends s u;
      EndsIn .blinkCounterWrap s s u ∧ t.shell = u.shell ∧
      ∀ i : Slot, t.outs.ledAtt[i] = (t.ssq.slots[i].attLed).lit 0 ∧ t.outs.ledPwr[i] = (t.ssq.slots[i].pwrLed).lit 0 ∧
        t.ssq.slots[i].pwrLed = powerLed t.ssq.slots[i].state) ∧
    (let u := { s with ssq := { s.ssq with blink := nextEdge s.ssq.blink } }; let t := ends s u;
      EndsIn .ledBlinkEdge s s u ∧ t.shell = u.shell ∧
      (s.ssq.blink < 2000 → t.ssq.blink < 2000) ∧
      ∀ i : Slot, t.outs.ledAtt[i] = (t.ssq.slots[i].attLed).lit t.ssq.blink ∧
        t.outs.ledPwr[i] = (t.ssq.slots[i].pwrLed).lit t.ssq.blink)) ∧
  (∀ s : State, s.phase = .operating → s.pending = [] →
    ∃ u v : State, u = dueRows.foldl (fun s row => fire row s) (countTimers s) ∧ u.phase = .operating ∧
      v = { readLines u with drc := { u.drc with debt := if u.drc.started then min 8 (u.drc.debt + 64) else u.drc.debt } } ∧
      step s = .next (react (fun v => countGate (countSecond (countBlink (readerTurn v)))) v)) ∧
  ∀ s : State, let t := countTimers s; let down := fun x : Timer => x.map (· - 1)
    (∀ i : Slot, t.ssq.slots[i].debounce = down s.ssq.slots[i].debounce ∧
      t.ssq.slots[i].seq = s.ssq.slots[i].seq.map (fun q => { q with left := q.left - 1 }) ∧
      t.ssq.slots[i].activityTimer = down s.ssq.slots[i].activityTimer ∧ t.pal.slots[i].deadline = down s.pal.slots[i].deadline ∧
      t.clc.slots[i].fresh = down s.clc.slots[i].fresh ∧
      t.ulc.slots[i].settle = s.ulc.slots[i].settle.map (fun q => { q with left := q.left - 1 })) ∧
    (∀ b : ModuleBay, t.inv.bays[b].debounce = down s.inv.bays[b].debounce ∧ t.inv.bays[b].retry = down s.inv.bays[b].retry) ∧
    (∀ b : PsuBay, t.psm.bays[b].start = down s.psm.bays[b].start ∧ t.psm.bays[b].restart = down s.psm.bays[b].restart ∧
      t.psm.bays[b].decay = down s.psm.bays[b].decay ∧ t.psm.bays[b].alertTimer = down s.psm.bays[b].alertTimer) ∧
    (∀ p : FanPos, t.clc.fans[p].presence = down s.clc.fans[p].presence ∧ t.clc.fans[p].spin = down s.clc.fans[p].spin ∧
      t.clc.fans[p].probeTimer = down s.clc.fans[p].probeTimer) ∧
    (∀ b : UplinkBay, t.ulc.bays[b].power = down s.ulc.bays[b].power ∧ t.ulc.bays[b].link = down s.ulc.bays[b].link ∧
      t.ulc.bays[b].decay = down s.ulc.bays[b].decay) ∧
    (countBlink s).ssq.blink = (s.ssq.blink + 1) % 2000 ∧
    (s.meu.sub < 999 → countSecond s = s.updMeu fun m => { m with sub := m.sub + 1 }) ∧
    (s.meu.sub = 999 → (countSecond s).meu.sub = 0 ∧ (s.acts (.word 0x104) → (countSecond s).meu.clock = s.meu.clock.advance)) ∧
    (s.clc.gate < 999 → (countGate s).clc.gate = s.clc.gate + 1) ∧ (s.clc.gate = 999 → (countGate s).clc.gate = 0)

/-- R170, R171: raising an event offers its four words to the write-backs at the write position, or at a full ring counts an overflow and
offers the flags, and does nothing else (`Raised`, section 1.13); while an overflow count waits for room in the write-back queue the next one
waits behind it, and so does the tail (R38, notes/assumptions/13.md). The record at the tail, once all four of its words have been performed, lets
the tail advance; a tail value that has been performed has the flag of every event up to it offered, in their order, and of none beyond it.
Before that, and with
nothing to report, the rows do nothing (the model's reading, notes/assumptions/10.md).
The ring never holds more than 63 records, between the tail and the write position: every step that the ports stay open over keeps it so,
with the head as it is stored in the image. -/
def Obligations.RecordsReachTheRingInOrder : Prop :=
  (∀ (c : Cause) (x : Subject) (d : Word) (s : State), Raised c x d s (raise c x d s) ∧
    (((s.meu.writePos + 1) % 64 = s.meu.head → s.acts (.word 0x1D3)) → raise c x d s = { s with
      meu := (raise c x d s).meu, wra := { s.wra with offered := (raise c x d s).wra.offered } }) ∧
    ((s.meu.writePos + 1) % 64 = s.meu.head → s.later = none → s.holds (.word 0x1D3) = true →
      raise c x d s = { s with held := s.held ++ [.meuOverflow c.group] })) ∧
  (∀ s : State, s.phase = .operating →
    (recordPerformed s = true → s.acts (.word 0x1D2) →
      EndsIn .eventRecordPerformed s s (s.updMeu fun m =>
        { m with
          tail := (m.tail + 1) % 64, records := m.records.drop 1
          tailPosted := m.tailPosted ++ m.records.take 1 })) ∧
    (recordPerformed s = false → s.acts (.word 0x1D2) → EndsIn .eventRecordPerformed s s s) ∧
    (recordPerformed s = true ↔ s.meu.records ≠ [] ∧ ∀ k : Fin 4, ∀ u ∈ s.wra.queue ++ s.waitingUpdates ++ s.wra.offered,
      u.off ≠ 0xE00 + s.meu.tail * 4 + k.val) ∧
    (∃ u : State, EndsIn .ringTailPerformed s s u ∧
      u = { s with
        meu := { s.meu with tailDone := [] }
        wra := { s.wra with offered := s.wra.offered ++
          s.meu.tailDone.map fun g => { off := 0x1D0, kind := .flags (putField g.val 1) } } }) ∧
    (s.meu.tailDone = [] → EndsIn .ringTailPerformed s s s) ∧
    ∀ w : Word, let n := s.meu.tailPosted.length - (s.meu.tail + 64 - w.toNat % 64) % 64
      tellMeu 0x1D2 w s = s.updMeu fun m =>
        { m with tailDone := m.tailDone ++ m.tailPosted.take n, tailPosted := m.tailPosted.drop n }) ∧
  (∀ s : State, RingLaw s →
    (∀ (c : Cause) (x : Subject) (d : Word), RingLaw (raise c x d s)) ∧ RingLaw (takeRecordPerformed s) ∧
    RingLaw (takeTailPerformed s) ∧
    (∀ n : Nat, RingLaw (settingNotice 0x14 (putField 0 (ringHeadStore s.meu.head s.meu.tail n)) s))) ∧
  ∀ s t : State, memWf s.mem = true → BufferLaw s → HeadLaw s → RingLaw s → s.phase = .operating → t.phase = .operating →
    step s = .next t → RingLaw t ∧ HeadLaw t
end

