-- ==== Sys2Proof/Laws/Shell.lean ====
section
/-! SUPPORT. The hand-overs of an event leave the shell of the state alone: one lemma for each operation they are made of, and at the
end one for all of them. -/

namespace Sys2Proof.Machine

/-! ## Updates -/

theorem map_set_same {α β : Type} {n : Nat} (v : Vector α n) (i : Fin n) (f : α → α) (g : α → β) (h : ∀ a, g (f a) = g a) :
    (v.set i (f v[i])).map g = v.map g := by
  ext k hk
  by_cases e : i.val = k
  · subst e; simp [h]
  · simp [e]

theorem shell_updSlot (s : State) (i : Slot) (f : SlotSeq → SlotSeq) (h : ∀ q, (f q).shell = q.shell) :
    (s.updSlot i f).shell = s.shell := by
  simp only [State.shell, State.updSlot, Ssq.shell, map_set_same _ _ _ _ h]

@[simp] theorem shell_updEntry (s : State) (e : EntryNo) (f : InvEntry → InvEntry) : (s.updEntry e f).shell = s.shell := rfl

@[simp] theorem shell_setVerification (s : State) (i : Slot) (v : Option Verification) :
    (s.setVerification i v).shell = s.shell := rfl

theorem shell_updPsu (s : State) (b : PsuBay) (f : Psu → Psu) (h : ∀ p, (f p).shell = p.shell) :
    (s.updPsu b f).shell = s.shell := by
  simp only [State.shell, State.updPsu, Psm.shell, map_set_same _ _ _ _ h]

theorem shell_updAlloc (s : State) (i : Slot) (f : Alloc → Alloc) (h : ∀ a, (f a).shell = a.shell) :
    (s.updAlloc i f).shell = s.shell := by
  simp only [State.shell, State.updAlloc, Pal.shell, map_set_same _ _ _ _ h]

theorem shell_updFan (s : State) (p : FanPos) (f : Fan → Fan) (h : ∀ a, (f a).shell = a.shell) :
    (s.updFan p f).shell = s.shell := by
  simp only [State.shell, State.updFan, Clc.shell, map_set_same _ _ _ _ h]

@[simp] theorem shell_updThermal (s : State) (i : Slot) (f : Thermal → Thermal) : (s.updThermal i f).shell = s.shell := rfl

theorem shell_updZone (s : State) (z : Zone) (f : ZoneState → ZoneState) (h : ∀ a, (f a).shell = a.shell) :
    (s.updZone z f).shell = s.shell := by
  simp only [State.shell, State.updZone, Clc.shell, map_set_same _ _ _ _ h]

theorem shell_updUplink (s : State) (b : UplinkBay) (f : Uplink → Uplink) (h : ∀ a, (f a).shell = a.shell) :
    (s.updUplink b f).shell = s.shell := by
  simp only [State.shell, State.updUplink, Ulc.shell, map_set_same _ _ _ _ h]

theorem shell_updPlacement (s : State) (i : Slot) (f : Placement → Placement) (h : ∀ a, (f a).shell = a.shell) :
    (s.updPlacement i f).shell = s.shell := by
  simp only [State.shell, State.updPlacement, Ulc.shell, map_set_same _ _ _ _ h]

theorem shell_updMeu (s : State) (f : Meu → Meu) (h : ∀ m, (f m).shell = m.shell) : (s.updMeu f).shell = s.shell := by
  simp only [State.shell, State.updMeu, h]

theorem shell_updPal (s : State) (f : Pal → Pal) (h : ∀ p, (f p).shell = p.shell) : (s.updPal f).shell = s.shell := by
  simp only [State.shell, State.updPal, h]

@[simp] theorem shell_offer (s : State) (u : Update) : (s.offer u).shell = s.shell := rfl
@[simp] theorem shell_force (s : State) (off : Nat) (m : Word) : (s.force off m).shell = s.shell := rfl
@[simp] theorem shell_forceWord (s : State) (off : Nat) : (s.forceWord off).shell = s.shell := rfl
@[simp] theorem shell_held (s : State) (l : List Held) : State.shell { s with held := l } = s.shell := rfl
@[simp] theorem shell_later (s : State) (l : Option (List Held)) : State.shell { s with later := l } = s.shell := rfl
@[simp] theorem shell_push (s : State) (m : Msg) : (s.push m).shell = s.shell := rfl
@[simp] theorem shell_agenda (s : State) (a : List Msg) : State.shell { s with agenda := a } = s.shell := rfl
@[simp] theorem shell_wra (s : State) (w : Wra) : State.shell { s with wra := w } = s.shell := rfl
@[simp] theorem shell_outs (s : State) (o : Outs) : State.shell { s with outs := o } = s.shell := rfl

/-- What each step of a list keeps, the whole list keeps. -/
theorem forEach_keeps {α β : Type} (g : State → β) (l : List α) (f : α → State → State) (h : ∀ a s, g (f a s) = g s) (s : State) :
    g (forEach l f s) = g s := by
  induction l generalizing s with
  | nil => rfl
  | cons a l ih => exact (ih (f a s)).trans (h a s)

theorem onlyIf_keeps {β : Type} (g : State → β) (c : Bool) (f : State → State) (h : ∀ s, g (f s) = g s) (s : State) :
    g (onlyIf c f s) = g s := by
  unfold onlyIf; split
  · exact h s
  · rfl

/-- What an operation leaves alone, it leaves alone too where it waits or is put off. -/
theorem whenFree_keeps {β : Type} (g : State → β) (m : Held) (f : State → State) (h : ∀ s, g (f s) = g s)
    (hh : ∀ (s : State) (l : List Held), g { s with held := l } = g s)
    (hl : ∀ (s : State) (l : Option (List Held)), g { s with later := l } = g s) (s : State) : g (whenFree m f s) = g s := by
  unfold whenFree State.hold
  repeat' split
  · exact h s
  · exact hl s _
  · exact hh s _
  · exact h s

/-! ## Events (9.3) -/

@[simp] theorem shell_raise (c : Cause) (x : Subject) (d : Word) (s : State) : (raise c x d s).shell = s.shell := by
  unfold raise
  dsimp only
  split
  · refine whenFree_keeps State.shell _ _ (fun s => ?_) (fun _ _ => rfl) (fun _ _ => rfl) s
    rw [countOverflow, shell_offer]; exact shell_updMeu _ _ fun _ => rfl
  · rw [forEach_keeps State.shell _ _ fun _ _ => shell_offer _ _]; exact shell_updMeu _ _ fun _ => rfl

/-! ## Cooling (chapter 7) -/

@[simp] theorem shell_formZone (z : Zone) (s : State) : (formZone z s).shell = s.shell := by
  unfold formZone
  dsimp only
  rw [shell_updZone]
  · have h : ∀ s, (forEach (zoneSlots z) (fun i s => s.updThermal i fun t => { t with demand := slotDemand s.clc.zones[z] t })
        s).shell = s.shell := forEach_keeps State.shell _ _ fun _ _ => rfl
    split
    · split
      · exact h s
      · exact (shell_raise _ _ _ _).trans (h s)
    · exact h s
  · exact fun _ => rfl

@[simp] theorem shell_formDrives (s : State) : (formDrives s).shell = s.shell := by
  unfold formDrives
  exact forEach_keeps State.shell _ _ (fun _ _ => by apply shell_updFan; exact fun _ => rfl) s

@[simp] theorem shell_formFactor (z : Zone) (s : State) : (formFactor z s).shell = s.shell := by
  unfold formFactor
  dsimp only
  split
  · rfl
  · split
    all_goals simp only [shell_push, shell_raise]
    all_goals rw [shell_updZone]; exact fun _ => rfl

@[simp] theorem shell_formReservation (s : State) : (formReservation s).shell = s.shell := by
  unfold formReservation
  dsimp only
  split <;> rfl

@[simp] theorem shell_formCooling (s : State) : (formCooling s).shell = s.shell := by
  unfold formCooling
  simp [forEach_keeps State.shell _ _ fun _ _ => shell_formFactor _ _, forEach_keeps State.shell _ _ fun _ _ => shell_formZone _ _]

@[simp] theorem shell_takeMember (i : Slot) (m : Bool) (s : State) : (takeMember i m s).shell = s.shell := by simp [takeMember]

@[simp] theorem shell_takeSensors (i : Slot) (n : Option Nat) (s : State) : (takeSensors i n s).shell = s.shell := by
  simp [takeSensors]

@[simp] theorem shell_takeCoolingRemoval (i : Slot) (s : State) : (takeCoolingRemoval i s).shell = s.shell := by
  simp [takeCoolingRemoval]

@[simp] theorem shell_takeModulePowered (b : UplinkBay) (p : Bool) (s : State) : (takeModulePowered b p s).shell = s.shell := by
  rw [takeModulePowered, shell_formCooling, shell_updZone]; exact fun _ => rfl

/-! ## Supplies (chapter 5) -/

@[simp] theorem shell_recomputeAvailable (always : Bool) (s : State) : (recomputeAvailable always s).shell = s.shell := by
  unfold recomputeAvailable
  dsimp only
  have ho : ∀ c s, (onlyIf c (fun s => (s.forceWord availableOff).forceWord redundancyOff) s).shell = s.shell := fun c =>
    onlyIf_keeps State.shell _ _ fun _ => rfl
  repeat' split
  all_goals simp only [shell_push, shell_raise, ho]; rfl

theorem shell_changePsu (b : PsuBay) (f : Psu → Psu) (events : List (Cause × (Psu → Word))) (s : State)
    (h : ∀ p, (f p).shell = p.shell) : (changePsu b f events s).shell = s.shell := by
  unfold changePsu
  dsimp only
  have hu : ∀ (p : Psu), p.shell = (s.psm.bays[b]).shell → (s.updPsu b fun _ => p).shell = s.shell := by
    intro p hp
    have := shell_updPsu s b (fun q => if q = s.psm.bays[b] then p else q) (by intro q; split <;> simp_all)
    simpa [State.updPsu] using this
  have he : ∀ (p : Psu) s, (forEach events (fun e s => raise e.1 (.psu b) (e.2 p) s) s).shell = s.shell := fun p =>
    forEach_keeps State.shell _ _ fun _ _ => shell_raise _ _ _ _
  split
  all_goals split
  all_goals simp only [shell_raise, shell_recomputeAvailable, he]
  all_goals exact hu _ (h _)

@[simp] theorem shell_countAlert (b : PsuBay) (s : State) : (countAlert b s).shell = s.shell := by
  unfold countAlert
  dsimp only
  split <;> exact shell_changePsu _ _ _ _ fun _ => rfl

theorem shell_enterStarting (b : PsuBay) (f : Psu → Psu) (s : State) (h : ∀ p, (f p).shell = p.shell) :
    (enterStarting b f s).shell = s.shell := by
  unfold enterStarting
  dsimp only
  have hc : ∀ s, (changePsu b (fun p => { (f p).quiet with state := .starting, start := some Config.psuStart }) [] s).shell =
      s.shell := fun s => shell_changePsu _ _ _ _ fun p => h p
  split <;> simp [hc]

@[simp] theorem shell_takePsuPresence (b : PsuBay) (present : Bool) (s : State) : (takePsuPresence b present s).shell = s.shell := by
  unfold takePsuPresence
  dsimp only
  repeat' split
  all_goals first
    | rfl
    | exact shell_changePsu _ _ _ _ fun _ => rfl

@[simp] theorem shell_takePsuVerdict (b : PsuBay) (rated : Option Nat) (s : State) :
    (takePsuVerdict b rated s).shell = s.shell := by
  unfold takePsuVerdict
  repeat' split
  all_goals first
    | rfl
    | exact shell_enterStarting _ _ _ fun _ => rfl
    | exact shell_changePsu _ _ _ _ fun _ => rfl

/-! ## Uplinks (chapter 8) -/

@[simp] theorem shell_joinList (b : UplinkBay) (i : Slot) (s : State) : (joinList b i s).shell = s.shell := by
  rw [joinList, shell_updPlacement, shell_updUplink] <;> exact fun _ => rfl

@[simp] theorem shell_leaveList (i : Slot) (s : State) : (leaveList i s).shell = s.shell := by
  unfold leaveList
  rw [shell_updPlacement]
  · split
    · rw [shell_updUplink]; exact fun _ => rfl
    · rfl
  · exact fun _ => rfl

@[simp] theorem shell_joinWait (i : Slot) (s : State) : (joinWait i s).shell = s.shell := by
  unfold joinWait; split <;> rfl

@[simp] theorem shell_leaveWait (i : Slot) (s : State) : (leaveWait i s).shell = s.shell := rfl

@[simp] theorem shell_walk (s : State) : (walk s).shell = s.shell := by
  unfold walk
  split
  · refine forEach_keeps State.shell _ _ (fun i s => ?_) s
    unfold walkSlot; split <;> simp
  · rfl

@[simp] theorem shell_placeOrPark (i : Slot) (l : Option UplinkBay) (s : State) : (placeOrPark i l s).shell = s.shell := by
  unfold placeOrPark raiseParked
  repeat' split
  all_goals simp

@[simp] theorem shell_place (i : Slot) (s : State) : (place i s).shell = s.shell := by
  unfold place raiseParked
  repeat' split
  all_goals simp

@[simp] theorem shell_failover (b : UplinkBay) (l : List Slot) (s : State) : (failover b l s).shell = s.shell := by
  unfold failover
  rw [forEach_keeps State.shell _ _ fun _ _ => shell_placeOrPark _ _ _, forEach_keeps State.shell]
  exact fun _ _ => shell_updPlacement _ _ _ fun _ => rfl

@[simp] theorem shell_failback (b : UplinkBay) (s : State) : (failback b s).shell = s.shell := by
  unfold failback
  dsimp only
  rw [forEach_keeps State.shell allSlots, forEach_keeps State.shell]
  · intro i s; split <;> simp
  · intro i s; split <;> simp

theorem timed_shell (u : Uplink) (a b : UplinkState) : (u.timed a b).shell = u.shell := by
  cases b <;> rfl

theorem shell_setBay (b : UplinkBay) (new : UplinkState) (f : Uplink → Uplink) (s : State) (h : ∀ u, (f u).shell = u.shell) :
    (setBay b new f s).shell = s.shell := by
  unfold setBay
  dsimp only
  have hu : ∀ (u : Uplink), u.shell = (s.ulc.bays[b]).shell → (s.updUplink b fun _ => u).shell = s.shell := by
    intro p hp
    have := shell_updUplink s b (fun q => if q = s.ulc.bays[b] then p else q) (by intro q; split <;> simp_all)
    simpa [State.updUplink] using this
  have hv := hu _ ((h { ((s.ulc.bays[b]).timed (s.ulc.bays[b]).state new) with state := new, members := [] }).trans
    (timed_shell (s.ulc.bays[b]) (s.ulc.bays[b]).state new))
  split
  · simpa using hv
  · split <;> try (simpa using hv)
    unfold returnTo
    simp only [shell_walk]
    split <;> simpa using hv

@[simp] theorem shell_switchOff (b : UplinkBay) (s : State) : (switchOff b s).shell = s.shell := by
  unfold switchOff
  split
  · exact shell_setBay _ _ _ _ fun _ => rfl
  · rfl

@[simp] theorem shell_memberLeft (b : Option UplinkBay) (s : State) : (memberLeft b s).shell = s.shell := by
  unfold memberLeft
  dsimp only
  split <;> simp

@[simp] theorem shell_takeUplinkPresence (b : UplinkBay) (p : Bool) (s : State) : (takeUplinkPresence b p s).shell = s.shell := by
  unfold takeUplinkPresence
  dsimp only
  repeat' split
  all_goals first
    | rfl
    | exact shell_setBay _ _ _ _ fun _ => rfl

@[simp] theorem shell_takeUplinkVerdict (b : UplinkBay) (f : Option ModuleFigures) (s : State) :
    (takeUplinkVerdict b f s).shell = s.shell := by
  unfold takeUplinkVerdict
  repeat' split
  all_goals first
    | rfl
    | exact shell_setBay _ _ _ _ fun _ => rfl

@[simp] theorem shell_takePowerOn (b : UplinkBay) (s : State) : (takePowerOn b s).shell = s.shell := by
  unfold takePowerOn
  split
  · exact shell_setBay _ _ _ _ fun _ => rfl
  · rfl

@[simp] theorem shell_takeRunEntry (i : Slot) (s : State) : (takeRunEntry i s).shell = s.shell := by
  rw [takeRunEntry, shell_place, shell_updPlacement]; exact fun _ => rfl

@[simp] theorem shell_takeDetach (i : Slot) (s : State) : (takeDetach i s).shell = s.shell := by
  unfold takeDetach
  dsimp only
  repeat' split
  all_goals repeat' first
    | rw [shell_memberLeft]
    | rw [shell_leaveWait]
    | rw [shell_push]
    | rw [shell_leaveList]
    | rw [shell_updPlacement]
    | exact fun _ => rfl

@[simp] theorem shell_takeDrop (i : Slot) (s : State) : (takeDrop i s).shell = s.shell := by
  unfold takeDrop
  dsimp only
  repeat' split
  all_goals repeat' first
    | rw [shell_memberLeft]
    | rw [shell_leaveWait]
    | rw [shell_push]
    | rw [shell_leaveList]
    | rw [shell_updPlacement]
    | exact fun _ => rfl

@[simp] theorem shell_takeUplinkRemoval (i : Slot) (s : State) : (takeUplinkRemoval i s).shell = s.shell := by
  rw [takeUplinkRemoval, shell_takeDrop, shell_updPlacement]; exact fun _ => rfl

@[simp] theorem shell_takeWeight (i : Slot) (w : Option Nat) (s : State) : (takeWeight i w s).shell = s.shell := by
  unfold takeWeight
  dsimp only
  split
  all_goals try rw [shell_walk]
  all_goals repeat rw [shell_updPlacement]
  all_goals exact fun _ => rfl

@[simp] theorem shell_takeUplinkMode (m : Mode) (s : State) : (takeUplinkMode m s).shell = s.shell := by
  unfold takeUplinkMode
  dsimp only
  rw [forEach_keeps State.shell _ _ fun _ _ => shell_switchOff _ _, shell_walk]
  rfl

/-! ## Allocation (chapter 6) -/

@[simp] theorem shell_trigger (s : State) : (trigger s).shell = s.shell := rfl
@[simp] theorem shell_formLoad (s : State) : (formLoad s).shell = s.shell := rfl
@[simp] theorem shell_notePosts (l : List Nat) (s : State) : (notePosts l s).shell = s.shell := rfl
@[simp] theorem shell_leaveQueue (i : Slot) (s : State) : (leaveQueue i s).shell = s.shell := rfl

/-- A change of every entry of the allocation table that keeps each entry's shell keeps the state's. -/
theorem shell_allocs (l : List Slot) (f : State → Slot → Alloc → Alloc) (h : ∀ s i a, (f s i a).shell = a.shell) (s : State) :
    (forEach l (fun i s => s.updAlloc i (f s i)) s).shell = s.shell :=
  forEach_keeps State.shell _ _ (fun i s => shell_updAlloc _ _ _ (h s i)) s

@[simp] theorem shell_evalDeficit (s : State) : (evalDeficit s).shell = s.shell := by
  unfold evalDeficit
  dsimp only
  split
  · rw [shell_raise, shell_allocs _ fun _ _ => Alloc.throttled]
    · rfl
    · intro _ _ a; unfold Alloc.throttled; split <;> rfl
  · split
    · rw [shell_raise, shell_allocs _ fun _ _ => Alloc.setDeficit false]
      · rfl
      · exact fun _ _ _ => rfl
    · rfl

@[simp] theorem shell_noteBlocked (w : AdmitWalk) (s : State) : (noteBlocked w s).shell = s.shell := by
  unfold noteBlocked
  dsimp only
  split
  · rfl
  · split
    · rfl
    · rw [shell_updPal, shell_raise]; exact fun _ => rfl

@[simp] theorem shell_setTargets (w : AdmitWalk) (m : List UplinkBay) (s : State) : (setTargets w m s).shell = s.shell := by
  unfold setTargets
  dsimp only
  rw [shell_updPal]
  · exact forEach_keeps State.shell _ _ (fun i s => by rw [shell_updAlloc]; exact fun _ => rfl) s
  · exact fun _ => rfl

@[simp] theorem shell_compute (s : State) : (compute s).shell = s.shell := by
  unfold compute admitAll
  dsimp only
  rw [forEach_keeps State.shell]
  · rw [shell_setTargets, shell_noteBlocked, markShed, formUses, forEach_keeps State.shell]
    · exact shell_allocs _ (fun _ _ => Alloc.formUse) (fun _ _ _ => rfl) s
    · exact fun i s => by rw [shell_updAlloc]; exact fun _ => rfl
  · intro i s; unfold shedSlot; simp

theorem reduce_shell (d : Bool) (a : Alloc) : (a.reduce d).shell = a.shell := by
  unfold Alloc.reduce Alloc.throttled
  dsimp only
  repeat' split
  all_goals rfl

@[simp] theorem shell_startPass (s : State) : (startPass s).shell = s.shell := by
  unfold startPass
  dsimp only
  rw [shell_evalDeficit, shell_notePosts, forEach_keeps State.shell _ _ fun _ _ => shell_forceWord _ _,
    shell_allocs _ fun s _ => Alloc.reduce s.pal.deficit, shell_compute]
  · rfl
  · exact fun _ _ _ => reduce_shell _ _

@[simp] theorem shell_admitSlot (i : Slot) (s : State) : (admitSlot i s).shell = s.shell := by
  unfold admitSlot
  split
  · dsimp only
    rw [shell_push, shell_notePosts, shell_trigger, shell_updAlloc]
    · rfl
    · exact fun _ => rfl
  · rfl

@[simp] theorem shell_admitModule (b : UplinkBay) (s : State) : (admitModule b s).shell = s.shell := by
  unfold admitModule; split <;> rfl

theorem increase_shell (a : Alloc) : a.increase.shell = a.shell := rfl

@[simp] theorem shell_enterRaise (s : State) : (enterRaise s).shell = s.shell := by
  unfold enterRaise
  extract_lets r s1 s2 s3 s4 s5 old s6
  have h1 : s1.shell = s.shell :=
    (shell_allocs _ (fun _ _ => Alloc.increase) (fun _ _ => increase_shell) _).trans (shell_updPal _ _ fun _ => rfl)
  have h2 : s2.shell = s1.shell := shell_notePosts _ _
  have h3 : s3.shell = s2.shell := forEach_keeps State.shell _ _ (fun _ _ => shell_admitSlot _ _) _
  have h4 : s4.shell = s3.shell := forEach_keeps State.shell _ _ (fun _ _ => shell_admitModule _ _) _
  have h5 : s5.shell = s4.shell := by
    apply shell_updPal; exact fun _ => rfl
  rw [onlyIf_keeps State.shell _ _ shell_trigger]
  change (evalDeficit (formLoad s5)).shell = _
  rw [shell_evalDeficit, shell_formLoad, h5, h4, h3, h2, h1]

@[simp] theorem shell_palTurn (s : State) : (palTurn s).shell = s.shell := by
  unfold palTurn
  split <;> simp

@[simp] theorem shell_proceedPass (s : State) : (proceedPass s).shell = s.shell := by
  unfold proceedPass
  split
  · exact shell_updPal _ _ fun _ => rfl
  · exact shell_enterRaise s

@[simp] theorem shell_recomputeLoad (s : State) : (recomputeLoad s).shell = s.shell := by
  unfold recomputeLoad
  dsimp only
  repeat' split
  all_goals simp

@[simp] theorem shell_restartIf (risen : Bool) (s : State) : (restartIf risen s).shell = s.shell := by
  unfold restartIf; split <;> simp

@[simp] theorem shell_joinQueueAt (i : Slot) (s : State) : (joinQueueAt i s).shell = s.shell := by
  unfold joinQueueAt; split <;> rfl

theorem changeStanding_shell (f : Nat) (n : Standing) (a : Alloc) : (a.changeStanding f n).shell = a.shell := by
  unfold Alloc.changeStanding
  split <;> rfl

theorem reported_shell (st : SlotState) (f d : Nat) (a : Alloc) : (a.reported st f d).shell = a.shell := by
  unfold Alloc.reported
  split
  · rfl
  · exact changeStanding_shell f (standingOf st) a

@[simp] theorem shell_takePalState (i : Slot) (st : SlotState) (s : State) : (takePalState i st s).shell = s.shell := by
  unfold takePalState
  dsimp only
  have hu : ∀ a : Alloc, a.shell = (s.pal.slots[i]).shell → (s.updAlloc i fun _ => a).shell = s.shell := by
    intro a ha
    have := shell_updAlloc s i (fun q => if q = s.pal.slots[i] then a else q) (by intro q; split <;> simp_all)
    simpa [State.updAlloc] using this
  have hv := hu _ (reported_shell st s.pal.factors[zoneOf i] s.pal.defaultAllowance s.pal.slots[i])
  repeat' split
  all_goals
    simp only [onlyIf_keeps State.shell _ _ shell_trigger, shell_restartIf, shell_joinQueueAt, shell_trigger, shell_leaveQueue]
    exact hv

theorem setAllowance_shell (w : Nat) (a : Alloc) : (a.setAllowance w).shell = a.shell := by
  unfold Alloc.setAllowance; split <;> rfl

@[simp] theorem shell_takePalProfile (i : Slot) (p : Option BladeProfile) (s : State) :
    (takePalProfile i p s).shell = s.shell := by
  unfold takePalProfile
  dsimp only
  have hu : ∀ w : Nat, (s.updAlloc i fun a => { a with plan := p.map (planOf s.pal.factors[zoneOf i]) }.setAllowance w).shell =
      s.shell := fun w => by
    apply shell_updAlloc; exact fun _ => setAllowance_shell _ _
  repeat' split
  all_goals first
    | exact hu _
    | exact (shell_restartIf _ _).trans (hu _)

@[simp] theorem shell_takePalSilent (i : Slot) (b : Bool) (s : State) : (takePalSilent i b s).shell = s.shell := by
  unfold takePalSilent
  dsimp only
  rw [onlyIf_keeps State.shell _ _ shell_trigger, shell_updAlloc]
  exact fun _ => rfl

@[simp] theorem shell_takeCooling (z : Zone) (f : Nat) (s : State) : (takeCooling z f s).shell = s.shell := by
  unfold takeCooling
  dsimp only
  split
  all_goals first
    | rw [shell_startPass]
    | rw [shell_trigger]
  all_goals exact shell_allocs _ (fun _ _ => Alloc.cool f) (fun _ _ _ => rfl) _

@[simp] theorem shell_takeReservation (r : Nat) (s : State) : (takeReservation r s).shell = s.shell := by
  rw [takeReservation, shell_recomputeLoad]; rfl

@[simp] theorem shell_takeAvailable (w : Nat) (s : State) : (takeAvailable w s).shell = s.shell := by
  unfold takeAvailable
  dsimp only
  split <;> simp only [shell_trigger, shell_recomputeLoad] <;> rfl

@[simp] theorem shell_takePalModule (b : UplinkBay) (st : UplinkState) (s : State) : (takePalModule b st s).shell = s.shell := by
  unfold takePalModule
  dsimp only
  split <;> simp only [shell_trigger, shell_recomputeLoad] <;> rfl

@[simp] theorem shell_takePalMode (m : Mode) (p : Bool) (s : State) : (takePalMode m p s).shell = s.shell := rfl

/-! ## The slot sequencer (chapter 3) and the MEU (chapter 9) -/

@[simp] theorem shell_handProfile (i : Slot) (s : State) : (handProfile i s).shell = s.shell := rfl

@[simp] theorem shell_inventoryPending (i : Slot) (s : State) : (inventoryPending i s).shell = s.shell := by
  unfold inventoryPending
  dsimp only
  rw [shell_handProfile, shell_updEntry, shell_setVerification]

@[simp] theorem shell_countChange (s : State) : (countChange s).shell = s.shell := rfl

@[simp] theorem shell_inventoryPromote (i : Slot) (s : State) : (inventoryPromote i s).shell = s.shell := by
  unfold inventoryPromote
  split
  · rfl
  · rw [shell_handProfile, onlyIf_keeps State.shell _ _ shell_countChange, shell_updEntry]

@[simp] theorem shell_inventoryRemoval (i : Slot) (s : State) : (inventoryRemoval i s).shell = s.shell := rfl

@[simp] theorem shell_takeInvState (i : Slot) (st : SlotState) (s : State) : (takeInvState i st s).shell = s.shell := by
  unfold takeInvState
  split <;> simp

@[simp] theorem shell_tellInv (i : Slot) (new : SlotState) (s : State) : (tellInv i new s).shell = s.shell := by
  unfold tellInv
  split
  all_goals first
    | exact whenFree_keeps State.shell _ _ (shell_takeInvState _ _) (fun _ _ => rfl) (fun _ _ => rfl) s
    | rfl

@[simp] theorem shell_tellSilent (i : Slot) (was : Bool) (s : State) : (tellSilent i was s).shell = s.shell := by
  unfold tellSilent
  dsimp only
  split <;> rfl

@[simp] theorem shell_tellUlc (i : Slot) (old new : SlotState) (s : State) : (tellUlc i old new s).shell = s.shell := by
  unfold tellUlc
  repeat' split
  all_goals rfl

theorem retime_shell (old new : SlotState) (q : SlotSeq) : (q.retime old new).shell = q.shell := by
  unfold SlotSeq.retime SlotSeq.startActivity SlotSeq.stopActivity
  repeat' split
  all_goals rfl

theorem shell_setSlot (i : Slot) (new : SlotState) (f : SlotSeq → SlotSeq) (s : State) (h : ∀ q, (f q).shell = q.shell) :
    (setSlot i new f s).shell = s.shell := by
  unfold setSlot
  dsimp only
  have hu : ∀ q : SlotSeq, q.shell = (s.ssq.slots[i]).shell → (s.updSlot i fun _ => q).shell = s.shell := by
    intro p hp
    have := shell_updSlot s i (fun q => if q = s.ssq.slots[i] then p else q) (by intro q; split <;> simp_all)
    simpa [State.updSlot] using this
  have hf := (h _).trans (retime_shell (s.ssq.slots[i]).state new { s.ssq.slots[i] with state := new, seq := s.ssq.seqOf new })
  rw [shell_tellSilent, shell_tellUlc]
  split
  all_goals try rw [shell_push]
  all_goals rw [shell_tellInv, shell_push]
  all_goals split
  all_goals try rw [shell_push]
  all_goals refine hu _ ?_
  all_goals first
    | exact hf
    | (split
       · exact hf
       · exact hf)

@[simp] theorem shell_examine (i : Slot) (s : State) : (examine i s).shell = s.shell := by
  unfold examine
  split
  · exact shell_setSlot _ _ _ _ fun _ => rfl
  · rfl

@[simp] theorem shell_enterReady (i : Slot) (s : State) : (enterReady i s).shell = s.shell := by
  unfold enterReady
  rw [shell_examine, shell_setSlot]; exact fun _ => rfl

@[simp] theorem shell_goDown (i : Slot) (c : DownCause) (s : State) : (goDown i c s).shell = s.shell := by
  unfold goDown
  split
  · rw [shell_enterReady, shell_updSlot]; exact fun _ => rfl
  · exact shell_setSlot _ _ _ _ fun _ => rfl
  · exact shell_setSlot _ _ _ _ fun _ => rfl
  · rfl

@[simp] theorem shell_renewCause (i : Slot) (c : DownCause) (s : State) : (renewCause i c s).shell = s.shell := by
  unfold renewCause
  split
  · exact shell_updSlot _ _ _ fun _ => rfl
  · exact shell_updSlot _ _ _ fun _ => rfl
  · rfl

@[simp] theorem shell_takeAdmission (i : Slot) (s : State) : (takeAdmission i s).shell = s.shell := by
  unfold takeAdmission
  split
  · exact shell_setSlot _ _ _ _ fun _ => rfl
  · rfl

@[simp] theorem shell_takeShed (i : Slot) (s : State) : (takeShed i s).shell = s.shell := by
  unfold takeShed
  split <;> simp

@[simp] theorem shell_takeDetachDone (i : Slot) (s : State) : (takeDetachDone i s).shell = s.shell := by
  unfold takeDetachDone
  split
  · exact shell_setSlot _ _ _ _ fun _ => rfl
  · rfl

@[simp] theorem shell_takeSlotVerdict (i : Slot) (v : Bool) (s : State) : (takeSlotVerdict i v s).shell = s.shell := by
  unfold takeSlotVerdict
  extract_lets u
  have hu : u.shell = s.shell := by
    apply shell_updSlot; exact fun _ => rfl
  split
  · rw [shell_enterReady, hu]
  · exact hu

@[simp] theorem shell_takeModeAt (i : Slot) (old new : Mode) (s : State) : (takeModeAt i old new s).shell = s.shell := by
  unfold takeModeAt
  repeat' split
  all_goals simp

@[simp] theorem shell_takeSlotMode (old new : Mode) (s : State) : (takeSlotMode old new s).shell = s.shell := by
  unfold takeSlotMode
  exact forEach_keeps State.shell _ _
    (fun _ => whenFree_keeps State.shell _ _ (shell_takeModeAt _ _ _) (fun _ _ => rfl) fun _ _ => rfl) s

@[simp] theorem shell_takeAbortAt (i : Slot) (s : State) : (takeAbortAt i s).shell = s.shell := by
  unfold takeAbortAt
  split <;> simp

@[simp] theorem shell_takeSlotAbort (s : State) : (takeSlotAbort s).shell = s.shell := by
  unfold takeSlotAbort
  exact forEach_keeps State.shell _ _ (fun _ => whenFree_keeps State.shell _ _ (shell_takeAbortAt _) (fun _ _ => rfl) fun _ _ => rfl) s

@[simp] theorem shell_formQuiescent (s : State) : (formQuiescent s).shell = s.shell := by
  unfold formQuiescent; exact shell_updMeu _ _ fun _ => rfl

@[simp] theorem shell_recount (s : State) : (recount s).shell = s.shell := by
  unfold recount; exact shell_updMeu _ _ fun _ => rfl

@[simp] theorem shell_setActual (m : Mode) (s : State) : (setActual m s).shell = s.shell := by
  unfold setActual
  dsimp only
  rw [shell_raise, shell_push, shell_push, shell_push, shell_formQuiescent, shell_updMeu]; exact fun _ => rfl

@[simp] theorem shell_setPending (p : Bool) (s : State) : (setPending p s).shell = s.shell := by
  unfold setPending
  rw [shell_push, shell_updMeu]; exact fun _ => rfl

@[simp] theorem shell_takeReport (s : State) : (takeReport s).shell = s.shell := by
  unfold takeReport completePending
  rw [shell_formQuiescent]
  split <;> simp

/-! ## All hand-overs -/

@[simp] theorem shell_act (m : Msg) (s : State) : (act m s).shell = s.shell := by
  cases m <;> simp [act]

@[simp] theorem shell_handle (m : Msg) (s : State) : (handle m s).shell = s.shell :=
  whenFree_keeps State.shell _ _ (shell_act m) (fun _ _ => rfl) (fun _ _ => rfl) s

@[simp] theorem shell_agendaTurn (s : State) : (agendaTurn s).shell = s.shell := by
  unfold agendaTurn
  split
  · rw [shell_handle, shell_agenda]
  · exact shell_palTurn s

@[simp] theorem shell_runAgenda (n : Nat) (s : State) : (runAgenda n s).shell = s.shell := by
  induction n generalizing s with
  | zero => rfl
  | succ n ih =>
    unfold runAgenda
    split
    · rfl
    · rw [ih, shell_agendaTurn]

/-- The hand-overs of an event leave the shell alone. -/
@[simp] theorem shell_settle (s : State) : (settle s).shell = s.shell := shell_runAgenda _ s

/-! ## The end of an event -/

@[simp] theorem shell_formEnd (s0 s : State) : (formEnd s0 s).shell = s.shell := by
  have hc : ∀ s, (countChanges s0.inv.entries s).shell = s.shell := fun _ => rfl
  have hl : ∀ s, (formSummary (formLeds s)).shell = s.shell := by
    intro s
    unfold formSummary formLeds
    rw [shell_updMeu]
    · exact forEach_keeps State.shell _ _ (fun _ _ => by apply shell_updSlot; exact fun _ => rfl) s
    · exact fun _ => rfl
  unfold formEnd
  dsimp only
  repeat' split
  all_goals simp only [hc, hl]

@[simp] theorem shell_armDeadlines (s : State) : (armDeadlines s).shell = s.shell := by
  unfold armDeadlines
  split
  · rfl
  refine forEach_keeps State.shell _ _ (fun i s => ?_) s
  dsimp only
  split
  · apply shell_updAlloc; exact fun _ => rfl
  · rfl

@[simp] theorem shell_takePosting (us : List Update) (s : State) : (takePosting us s).shell = s.shell := by
  unfold takePosting
  refine shell_updPal _ _ fun p => ?_
  split <;> rfl

@[simp] theorem shell_drive (s : State) : (drive s).shell = s.shell := by
  unfold drive
  repeat' split
  all_goals rfl

@[simp] theorem shell_postUpdate (s : State) (u : Update) : (s.postUpdate u).shell = s.shell := by
  unfold State.postUpdate
  repeat' split
  all_goals rfl

@[simp] theorem shell_postAll (us : List Update) (s : State) : (postAll us s).shell = s.shell := by
  have h : ∀ (l : List Update) (s : State), (l.foldl State.postUpdate s).shell = s.shell := by
    intro l
    induction l with
    | nil => exact fun _ => rfl
    | cons u l ih => exact fun s => (ih _).trans (shell_postUpdate s u)
  exact (h _ _).trans (shell_wra _ _)

@[simp] theorem shell_flush (base s : State) : (flush base s).shell = s.shell := by
  unfold flush
  simp

/-- The hand-overs of an event and the passes that follow leave the shell alone. -/
@[simp] theorem shell_carry (n : Nat) (base s : State) : (carry n base s).2.shell = s.shell := by
  induction n generalizing base s with
  | zero => rfl
  | succ n ih =>
    unfold carry
    dsimp only
    split
    · rw [ih, shell_proceedPass, shell_flush, shell_settle]
    · exact shell_settle s

/-- The end of an event leaves the shell of the event's own effect alone. -/
@[simp] theorem shell_conclude (s0 s : State) : (conclude s0 s).shell = s.shell := by
  unfold conclude
  simp

/-- The end of an event with its hand-overs leaves the shell of the event's own effect alone. -/
@[simp] theorem shell_ends (s u : State) : (ends s u).shell = u.shell := by simp [ends]

/-- R38: an event for which the write-back queue has room ends whole. -/
theorem react_fits {f : State → State} {s : State} (h : Fits s (f s)) : react f s = ends s (f s) := if_pos h

/-- R38: an event for which it has none is carried out part by part. -/
theorem react_parts {f : State → State} {s : State} (h : ¬Fits s (f s)) : react f s = partByPart f s := if_neg h

/-- A whole event leaves what its own effect leaves, as far as the shell goes. -/
theorem shell_react {f : State → State} {s : State} (h : Fits s (f s)) : (react f s).shell = (f s).shell := by
  rw [react_fits h, shell_ends]

end Sys2Proof.Machine
end

