-- ==== Sys2Proof/Laws/Event.lean ====
section
/-! SUPPORT. The shape of an event: hand-overs with nothing to carry out, the lines driven at its end, and what the shell law says
field by field. -/

namespace Sys2Proof.Machine

/-- With nothing to carry out, the hand-overs of an event change nothing. -/
theorem settle_done {s : State} (h : agendaDone s = true) : settle s = s := by
  show runAgenda (3999 + 1) s = s
  rw [runAgenda, if_pos h]

theorem agendaDone_of {s : State} (ha : s.agenda = []) (hd : s.pal.due = false) : agendaDone s = true := by
  simp [agendaDone, passDue, ha, hd]

/-- The lines at the end of an event are those the blocks drive, while the ports are open. -/
theorem drive_outs {s : State} (h : s.phase = .operating) : (drive s).outs = outsOf (drive s) := by
  simp [drive, h, outsOf]

/-- `drive` changes the lines out alone. -/
theorem drive_phase (s : State) : (drive s).phase = s.phase := by
  unfold drive; repeat' split
  all_goals rfl

/-- At the end of an event that leaves the ports open, the lines are those the blocks drive. -/
theorem conclude_outs {s0 s : State} (h : (conclude s0 s).phase = .operating) :
    (conclude s0 s).outs = outsOf (conclude s0 s) :=
  drive_outs ((drive_phase _).symm.trans h)

theorem ends_outs {s u : State} (h : (ends s u).phase = .operating) : (ends s u).outs = outsOf (ends s u) := conclude_outs h

theorem react_outs {f : State → State} {s : State} (hf : Fits s (f s)) (h : (react f s).phase = .operating) :
    (react f s).outs = outsOf (react f s) := by
  rw [react_fits hf] at h ⊢
  exact ends_outs h

/-- With nothing to hand over and no pass to carry on, an event is its own effect and its end. -/
theorem carry_done {n : Nat} {base s : State} (ha : s.agenda = []) (hd : s.pal.due = false) (hr : s.pal.reduced = false) :
    carry (n + 1) base s = (base, s) := by
  have e : settle s = s := settle_done (agendaDone_of ha hd)
  simp [carry, passMoves, e, hr]

/-! ## An operation that is carried out, and one that waits -/

theorem whenFree_acts {m : Held} {f : State → State} {s : State} {k : Scope} (hm : m.scope s.inv = some k)
    (h : s.acts k) : whenFree m f s = f s := by
  simp [whenFree, hm, h.1, h.2]

theorem whenFree_waits {m : Held} {f : State → State} {s : State} {k : Scope} (hm : m.scope s.inv = some k)
    (hl : s.later = none) (h : s.holds k = true) : whenFree m f s = s.hold m := by
  simp [whenFree, hm, hl, h]

theorem whenFree_putOff {m : Held} {f : State → State} {s : State} {k : Scope} {l : List Held} (hm : m.scope s.inv = some k)
    (hl : s.later = some l) : whenFree m f s = { s with later := some (l ++ [m]) } := by
  simp [whenFree, hm, hl]

theorem whenFree_unscoped {m : Held} {f : State → State} {s : State} (hm : m.scope s.inv = none) : whenFree m f s = f s := by
  simp [whenFree, hm]

/-- With nothing waiting no block is held up. -/
theorem holds_of_nothing {s : State} {k : Scope} (hw : s.wra.waiting = []) (hh : s.held = []) : s.holds k = false := by
  simp [State.holds, State.waitingUpdates, hw, hh]

/-- With nothing held and no pass to carry on, nothing is offered again. -/
@[simp] theorem resumeHeld_nil {s : State} (h : s.held = []) (hd : s.pal.due = false) (hr : s.pal.reduced = false) :
    resumeHeld s = s := by
  have e : { s with held := [] } = s := by rw [← h]
  unfold resumeHeld
  rw [h, e]
  show offerAll (3999 + 1) [] s = s
  rw [offerAll, if_neg (by simp [passDue, passMoves, hd, hr])]

/-- R38: an operation that is offered waits whole, or is carried out whole, the queue having taken every update that binds it; what it
hands over comes after it. -/
theorem offerOne_cases (m : Held) (s : State) :
    offerOne m s = (s.hold m, []) ∨
      ∃ v t, s.holdsBack m = false ∧ v = actHeld m { s with later := some [] } ∧ t = conclude s v ∧ taken v t = true ∧
        offerOne m s = ({ t with later := none }, t.later.getD []) := by
  unfold offerOne
  by_cases hb : s.holdsBack m = true
  · exact .inl (if_pos hb)
  rw [if_neg hb]
  dsimp only
  by_cases ht : taken (actHeld m { s with later := some [] }) (conclude s (actHeld m { s with later := some [] })) = true
  · exact .inr ⟨_, _, by simpa using hb, rfl, rfl, ht, if_pos ht⟩
  · exact .inl (if_neg ht)

/-! ### What every operation keeps, the parts of an event keep -/

theorem offerOne_keeps {I : State → Prop} (hold : ∀ m s, I s → I (s.hold m))
    (act : ∀ m s, I s → I { conclude s (actHeld m { s with later := some [] }) with later := none }) (m : Held) {s : State} (h : I s) :
    I (offerOne m s).1 := by
  obtain e | ⟨v, t, -, rfl, rfl, -, e⟩ := offerOne_cases m s
  · rw [e]; exact hold m s h
  · rw [e]; exact act m s h

theorem offerAll_keeps {I : State → Prop} (append : ∀ l s, I s → I { s with held := s.held ++ l })
    (one : ∀ m s, I s → I (offerOne m s).1) (n : Nat) (l : List Held) {s : State} (h : I s) : I (offerAll n l s) := by
  induction n generalizing l s with
  | zero => exact append l s h
  | succ n ih =>
    cases l with
    | nil =>
      rw [offerAll]
      split
      · exact ih _ h
      · exact h
    | cons m rest => exact ih _ (one m s h)

/-- An event keeps what its end keeps where it ends whole, and what its first part and each offered operation keep where it does not. -/
theorem react_keeps {I : State → Prop} {f : State → State} {s : State} (whole : I (conclude s (f s)))
    (first : I { conclude s (f { s with later := some [] }) with later := none })
    (append : ∀ l s, I s → I { s with held := s.held ++ l }) (one : ∀ m s, I s → I (offerOne m s).1) : I (react f s) := by
  unfold react
  dsimp only
  split
  · exact whole
  · exact offerAll_keeps append one _ _ first

theorem resumeHeld_keeps {I : State → Prop} {s : State} (start : I { s with held := [] })
    (append : ∀ l s, I s → I { s with held := s.held ++ l }) (one : ∀ m s, I s → I (offerOne m s).1) : I (resumeHeld s) :=
  offerAll_keeps append one _ _ start

/-- A command that completes, and for which the queue has room, ends in the end of its event. -/
theorem EndsIn.fits {c : Instr} {s s₀ u : State} (h : EndsIn c s s₀ u) (hf : Fits s₀ u) : exec c s = .next (ends s₀ u) := by
  obtain ⟨h, rfl⟩ := h
  rw [h, react_fits hf]

/-! ## Fields an event keeps -/

section keeps

variable {s t : State} (h : s.shell = t.shell)

include h

theorem shell_pending : s.pending = t.pending := by have := congrArg (fun x => x.pending) h; exact this
theorem shell_phase : s.phase = t.phase := by have := congrArg (fun x => x.phase) h; exact this
theorem shell_formatLatch : s.formatLatch = t.formatLatch := by have := congrArg (fun x => x.formatLatch) h; exact this
theorem shell_mem : s.mem = t.mem := by have := congrArg (fun x => x.mem) h; exact this
theorem shell_drc : s.drc = t.drc := by have := congrArg (fun x => x.drc) h; exact this
theorem shell_pmp : s.pmp = t.pmp := by have := congrArg (fun x => x.pmp) h; exact this
theorem shell_links : s.links = t.links := by have := congrArg (fun x => x.links) h; exact this
theorem shell_pins : s.pins = t.pins := by have := congrArg (fun x => x.pins) h; exact this
theorem shell_clock : s.meu.clock = t.meu.clock := by have := congrArg (fun x => x.meu.clock) h; exact this
theorem shell_tail : s.meu.tail = t.meu.tail := by have := congrArg (fun x => x.meu.tail) h; exact this
theorem shell_head : s.meu.head = t.meu.head := by have := congrArg (fun x => x.meu.head) h; exact this
theorem shell_flags : s.meu.flags = t.meu.flags := by have := congrArg (fun x => x.meu.flags) h; exact this
theorem shell_enables : s.meu.enables = t.meu.enables := by have := congrArg (fun x => x.meu.enables) h; exact this
theorem shell_margin : s.psm.margin = t.psm.margin := by have := congrArg (fun x => x.psm.margin) h; exact this
theorem shell_policy : s.psm.policy = t.psm.policy := by have := congrArg (fun x => x.psm.policy) h; exact this
theorem shell_baseLoad : s.pal.baseLoad = t.pal.baseLoad := by have := congrArg (fun x => x.pal.baseLoad) h; exact this
theorem shell_bays : s.inv.bays = t.inv.bays := by have := congrArg (fun x => x.inv.bays) h; exact this
theorem shell_reading : s.inv.reading = t.inv.reading := by have := congrArg (fun x => x.inv.reading) h; exact this
theorem shell_readerQueue : s.inv.queue = t.inv.queue := by have := congrArg (fun x => x.inv.queue) h; exact this
theorem shell_blink : s.ssq.blink = t.ssq.blink := by have := congrArg (fun x => x.ssq.blink) h; exact this

/-- One slot, as far as its shell goes. -/
theorem shell_slot (i : Slot) : (s.ssq.slots[i]).shell = (t.ssq.slots[i]).shell := by
  have := congrArg (fun s => s.ssq.slots[i]) h
  simpa [State.shell, Ssq.shell] using this

theorem shell_fan (p : FanPos) : (s.clc.fans[p]).shell = (t.clc.fans[p]).shell := by
  have := congrArg (fun s => s.clc.fans[p]) h
  simpa [State.shell, Clc.shell] using this

theorem shell_zone (z : Zone) : (s.clc.zones[z]).shell = (t.clc.zones[z]).shell := by
  have := congrArg (fun s => s.clc.zones[z]) h
  simpa [State.shell, Clc.shell] using this

theorem shell_alloc (i : Slot) : (s.pal.slots[i]).shell = (t.pal.slots[i]).shell := by
  have := congrArg (fun s => s.pal.slots[i]) h
  simpa [State.shell, Pal.shell] using this

theorem shell_uplink (b : UplinkBay) : (s.ulc.bays[b]).shell = (t.ulc.bays[b]).shell := by
  have := congrArg (fun s => s.ulc.bays[b]) h
  simpa [State.shell, Ulc.shell] using this

theorem shell_placement (i : Slot) : (s.ulc.slots[i]).shell = (t.ulc.slots[i]).shell := by
  have := congrArg (fun s => s.ulc.slots[i]) h
  simpa [State.shell, Ulc.shell] using this

theorem shell_psu (b : PsuBay) : (s.psm.bays[b]).shell = (t.psm.bays[b]).shell := by
  have := congrArg (fun s => s.psm.bays[b]) h
  simpa [State.shell, Psm.shell] using this

end keeps

end Sys2Proof.Machine
end

