-- ==== Sys2Proof/Laws/Memory.lean ====
section
/-! SUPPORT. The DRAM: what a read gives after a write, and that a write keeps the canonical form. -/

namespace Sys2Proof.Machine

/-- Every address of a list lies above `a`. -/
def allAbove (a : Nat) (m : List (Nat × Word)) : Prop := ∀ e ∈ m, a < e.1

theorem memWf_cons (k : Nat) (v : Word) (m : List (Nat × Word)) :
    memWf ((k, v) :: m) = true ↔ v ≠ unlisted ∧ allAbove k m ∧ memWf m = true := by
  induction m generalizing k v with
  | nil => simp [memWf, allAbove]
  | cons e m ih =>
    obtain ⟨k', v'⟩ := e
    have h : memWf ((k, v) :: (k', v') :: m) = (v != unlisted && decide (k < k') && memWf ((k', v') :: m)) := rfl
    rw [h]
    simp only [Bool.and_eq_true, bne_iff_ne, decide_eq_true_eq, and_assoc]
    refine and_congr_right fun _ => ⟨fun ⟨hk, hm⟩ => ⟨?_, hm⟩, fun ⟨ha, hm⟩ => ⟨?_, hm⟩⟩
    · intro e he
      rcases List.mem_cons.1 he with rfl | he
      · exact hk
      · exact hk.trans ((ih k' v').1 hm |>.2.1 e he)
    · exact ha (k', v') (by simp)

/-- A word of no entry reads as the unlisted word. -/
theorem memRead_below {a b : Nat} {m : List (Nat × Word)} (h : allAbove a m) (hb : b ≤ a) : memRead m b = unlisted := by
  induction m with
  | nil => rfl
  | cons e m ih =>
    obtain ⟨k, v⟩ := e
    have hk : a < k := h (k, v) (by simp)
    rw [memRead, if_neg (by omega)]
    exact ih fun e he => h e (by simp [he])

theorem allAbove_memWrite {k a : Nat} {m : List (Nat × Word)} (w : Word) (h : allAbove k m) (ha : k < a) :
    allAbove k (memWrite m a w) := by
  induction m with
  | nil => unfold memWrite; split <;> simp [allAbove, ha]
  | cons e m ih =>
    obtain ⟨k', v'⟩ := e
    have hk : k < k' := h (k', v') (by simp)
    have hm : allAbove k m := fun e he => h e (by simp [he])
    unfold memWrite
    repeat' split
    all_goals simp_all only [allAbove, List.mem_cons, forall_eq_or_imp, true_and, and_true, implies_true]

/-- A write keeps the canonical form. -/
theorem memWf_memWrite {m : List (Nat × Word)} (a : Nat) (w : Word) (h : memWf m = true) : memWf (memWrite m a w) = true := by
  induction m with
  | nil =>
    unfold memWrite
    split
    · rfl
    · rw [memWf_cons]; exact ⟨by assumption, by simp [allAbove], rfl⟩
  | cons e m ih =>
    obtain ⟨k, v⟩ := e
    have hc := (memWf_cons k v m).1 h
    unfold memWrite
    repeat' split
    · exact h
    · rename_i hak hw
      rw [memWf_cons]
      refine ⟨hw, ?_, h⟩
      intro e he
      rcases List.mem_cons.1 he with rfl | he
      · exact hak
      · exact hak.trans (hc.2.1 e he)
    · exact hc.2.2
    · rename_i hak hk hw
      subst hk
      rw [memWf_cons]; exact ⟨hw, hc.2.1, hc.2.2⟩
    · rename_i hak hk
      rw [memWf_cons]
      exact ⟨hc.1, allAbove_memWrite w hc.2.1 (by omega), ih hc.2.2⟩

/-- A write leaves every other word alone. -/
theorem memRead_memWrite_other {m : List (Nat × Word)} {a b : Nat} (w : Word) (h : b ≠ a) :
    memRead (memWrite m a w) b = memRead m b := by
  induction m with
  | nil => unfold memWrite; split <;> simp [memRead, h.symm]
  | cons e m ih =>
    obtain ⟨k, v⟩ := e
    unfold memWrite
    repeat' split
    · rfl
    · rw [memRead, if_neg h.symm]
    · subst_vars; rw [memRead, if_neg h.symm]
    · subst_vars; rw [memRead, memRead, if_neg h.symm, if_neg h.symm]
    · rw [memRead, memRead, ih]

/-- A read of the word written gives the value written. -/
theorem memRead_memWrite_self {m : List (Nat × Word)} (a : Nat) (w : Word) (h : memWf m = true) :
    memRead (memWrite m a w) a = w := by
  induction m with
  | nil => unfold memWrite; split <;> simp_all [memRead]
  | cons e m ih =>
    obtain ⟨k, v⟩ := e
    have hc := (memWf_cons k v m).1 h
    unfold memWrite
    repeat' split
    · rename_i hak hw
      rw [memRead, if_neg (by omega), hw]
      exact memRead_below (a := k) hc.2.1 (by omega)
    · rw [memRead, if_pos rfl]
    · rename_i hak hk hw
      rw [hw]; exact memRead_below (a := k) hc.2.1 (by omega)
    · rw [memRead, if_pos rfl]
    · rename_i hak hk
      rw [memRead, if_neg (by omega)]; exact ih hc.2.2

end Sys2Proof.Machine
end

