-- ==== Sys2Proof/Laws/Queue.lean ====
section
/-! SUPPORT. What posting to the write-back queue and to the read-back list can do (R38, R39), once each. -/

namespace Sys2Proof.Machine

@[simp] theorem joinQueue_length (q : List Update) (u : Update) : (joinQueue q u).length = q.length := by simp [joinQueue]

/-- A join moves no entry and changes no entry's word. -/
theorem joinQueue_offs (q : List Update) (u : Update) : (joinQueue q u).map (·.off) = q.map (·.off) := by
  rw [joinQueue, List.map_map]
  refine List.map_congr_left fun e _ => ?_
  dsimp only [Function.comp]
  split <;> rfl

/-- Is there an entry for a word: its offset is among the offsets. -/
theorem holdsWord_iff (q : List Update) (off : Nat) : holdsWord q off = true ↔ off ∈ q.map (·.off) := by
  simp [holdsWord, List.any_eq_true]

/-- Nothing waits behind an empty list. -/
theorem behind_nil {w : Wra} (u : Update) (h : w.waiting = []) : w.behind u = false := by simp [Wra.behind, h]

/-- What an update waits behind: a waiting one that must come before it. -/
theorem behind_iff (w : Wra) (u : Update) : w.behind u = true ↔ ∃ v ∈ w.waiting, v.precedes u = true := List.any_eq_true

/-- R38: an offered update joins its word's entry, takes the tail of the queue, or waits; where its word has an entry it waits only
behind an earlier update. -/
theorem post_cases (w : Wra) (u : Update) :
    (holdsWord w.queue u.off = true ∧ w.behind u = false ∧ w.post u = { w with queue := joinQueue w.queue u }) ∨
      (holdsWord w.queue u.off = false ∧ w.waiting = [] ∧ w.queue.length < Config.queueSize ∧
        w.post u = { w with queue := w.queue ++ [u] }) ∨
      ((holdsWord w.queue u.off = true → w.behind u = true) ∧
        (holdsWord w.queue u.off = false → w.waiting ≠ [] ∨ Config.queueSize ≤ w.queue.length) ∧
        w.post u = { w with waiting := w.waiting ++ [u] }) := by
  unfold Wra.post Wra.joinOr Wra.putLast
  cases h : holdsWord w.queue u.off
  · by_cases h' : w.waiting = [] ∧ w.queue.length < Config.queueSize
    · exact .inr (.inl ⟨rfl, h'.1, h'.2, by simp [h'.1, h'.2]⟩)
    · refine .inr (.inr ⟨by simp, fun _ => or_iff_not_imp_left.mpr fun hn => ?_, ?_⟩)
      · exact Nat.not_lt.mp fun hl => h' ⟨not_not.mp hn, hl⟩
      · have : (w.waiting.isEmpty && decide (w.queue.length < Config.queueSize)) = false := by
          rw [Bool.eq_false_iff]; simpa using h'
        simp [this]
  · cases hb : w.behind u
    · exact .inl ⟨rfl, rfl, by simp⟩
    · exact .inr (.inr ⟨fun _ => rfl, by simp, by simp⟩)

/-- R38: a waiting update looked at again joins its word's entry, or goes on waiting behind those kept before it. -/
theorem rejoin_cases (w : Wra) (u : Update) :
    (holdsWord w.queue u.off = true ∧ w.behind u = false ∧ w.rejoin u = { w with queue := joinQueue w.queue u }) ∨
      ((holdsWord w.queue u.off = true → w.behind u = true) ∧ w.rejoin u = { w with waiting := w.waiting ++ [u] }) := by
  unfold Wra.rejoin Wra.joinOr Wra.putLast
  cases h : holdsWord w.queue u.off
  · exact .inr ⟨by simp, by simp⟩
  · cases hb : w.behind u
    · exact .inl ⟨rfl, rfl, by simp⟩
    · exact .inr ⟨fun _ => rfl, by simp⟩

@[simp] theorem post_reads (w : Wra) (u : Update) : (w.post u).reads = w.reads := by
  obtain ⟨_, _, e⟩ | ⟨_, _, _, e⟩ | ⟨_, _, e⟩ := post_cases w u <;> rw [e]

@[simp] theorem post_readsWaiting (w : Wra) (u : Update) : (w.post u).readsWaiting = w.readsWaiting := by
  obtain ⟨_, _, e⟩ | ⟨_, _, _, e⟩ | ⟨_, _, e⟩ := post_cases w u <;> rw [e]

@[simp] theorem post_offered (w : Wra) (u : Update) : (w.post u).offered = w.offered := by
  obtain ⟨_, _, e⟩ | ⟨_, _, _, e⟩ | ⟨_, _, e⟩ := post_cases w u <;> rw [e]

@[simp] theorem post_forced (w : Wra) (u : Update) : (w.post u).forced = w.forced := by
  obtain ⟨_, _, e⟩ | ⟨_, _, _, e⟩ | ⟨_, _, e⟩ := post_cases w u <;> rw [e]

/-- R39: the queue never comes to hold more than its size by a post. -/
theorem post_queue_length {w : Wra} (u : Update) (h : w.queue.length ≤ Config.queueSize) :
    (w.post u).queue.length ≤ Config.queueSize := by
  obtain ⟨_, _, e⟩ | ⟨_, _, hl, e⟩ | ⟨_, _, e⟩ := post_cases w u <;> rw [e]
  · simpa using h
  · simpa using hl
  · exact h

/-- R38: no word comes to have two entries by a post. -/
theorem post_queue_nodup {w : Wra} (u : Update) (h : (w.queue.map (·.off)).Nodup) : ((w.post u).queue.map (·.off)).Nodup := by
  obtain ⟨_, _, e⟩ | ⟨hn, _, _, e⟩ | ⟨_, _, e⟩ := post_cases w u <;> rw [e]
  · simpa only [joinQueue_offs] using h
  · have hm : u.off ∉ w.queue.map (·.off) := fun hm => by
      rw [← holdsWord_iff, hn] at hm; exact Bool.false_ne_true hm
    rw [List.map_append, List.nodup_append]
    refine ⟨h, by simp, fun a ha b hb => ?_⟩
    have : b = u.off := by simpa using hb
    rintro rfl
    exact hm (this ▸ ha)
  · exact h

/-- Is an update's word among a queue's once an update has joined: as before. -/
@[simp] theorem holdsWord_joinQueue (q : List Update) (u : Update) (off : Nat) :
    holdsWord (joinQueue q u) off = holdsWord q off := by
  rw [Bool.eq_iff_iff, holdsWord_iff, holdsWord_iff, joinQueue_offs]

/-! ## The updates that wait -/

/-- With no update held, those that wait are the WRA's. -/
theorem waitingUpdates_of {s : State} (h : s.held = []) : s.waitingUpdates = s.wra.waiting := by simp [State.waitingUpdates, h]

/-- An update held at the end waits behind all the others. -/
theorem waitingUpdates_hold (s : State) (u : Update) : (s.hold (.update u)).waitingUpdates = s.waitingUpdates ++ [u] := by
  simp [State.waitingUpdates, State.hold, Held.update?]

/-- R38: an update of an event joins its word's entry, takes the tail of the queue, or waits; it takes an entry only where nothing waits,
and waits for a word that has one only behind an earlier update. -/
theorem postUpdate_cases (s : State) (u : Update) :
    (holdsWord s.wra.queue u.off = true ∧ (s.waitingUpdates.any fun v => v.precedes u) = false ∧
        s.postUpdate u = { s with wra := { s.wra with queue := joinQueue s.wra.queue u } }) ∨
      (holdsWord s.wra.queue u.off = false ∧ s.waitingUpdates = [] ∧ s.held = [] ∧ s.wra.queue.length < Config.queueSize ∧
        s.postUpdate u = { s with wra := { s.wra with queue := s.wra.queue ++ [u] } }) ∨
      ((holdsWord s.wra.queue u.off = true → (s.waitingUpdates.any fun v => v.precedes u) = true) ∧
        (s.postUpdate u).waitingUpdates = s.waitingUpdates ++ [u] ∧ (s.postUpdate u).wra.queue = s.wra.queue) := by
  unfold State.postUpdate
  by_cases hh : s.held = []
  · rw [if_pos (by simp [hh])]
    have hw := waitingUpdates_of hh
    obtain ⟨h, hb, e⟩ | ⟨h, hn, hl, e⟩ | ⟨h, _, e⟩ := post_cases s.wra u <;> rw [e, hw]
    · exact .inl ⟨h, hb, rfl⟩
    · exact .inr (.inl ⟨h, hn, hh, hl, rfl⟩)
    · exact .inr (.inr ⟨h, waitingUpdates_of hh, rfl⟩)
  · rw [if_neg (by simpa using hh)]
    by_cases hj : holdsWord s.wra.queue u.off = true ∧ (s.waitingUpdates.any fun v => v.precedes u) = false
    · exact .inl ⟨hj.1, hj.2, if_pos (by simp [hj.1, hj.2])⟩
    · have hj' : (holdsWord s.wra.queue u.off && !s.waitingUpdates.any fun v => v.precedes u) = false := by
        rw [Bool.eq_false_iff]; simpa using hj
      rw [if_neg (by simp [hj'])]
      refine .inr (.inr ⟨fun h => ?_, waitingUpdates_hold s u, rfl⟩)
      by_contra hc
      exact hj ⟨h, by simpa using hc⟩

/-- R39: a read-back request enters the list, or waits behind a full list or an earlier waiting request. -/
theorem request_cases (w : Wra) (r : ReadRequest) :
    (w.readsWaiting = [] ∧ w.reads.length < Config.queueSize ∧ w.request r = { w with reads := w.reads ++ [r] }) ∨
      w.request r = { w with readsWaiting := w.readsWaiting ++ [r] } := by
  unfold Wra.request
  split_ifs with h
  · simp only [Bool.and_eq_true, List.isEmpty_iff, decide_eq_true_eq] at h
    exact .inl ⟨h.1, h.2, rfl⟩
  · exact .inr rfl

@[simp] theorem request_queue (w : Wra) (r : ReadRequest) : (w.request r).queue = w.queue := by
  unfold Wra.request; split_ifs <;> rfl

@[simp] theorem request_waiting (w : Wra) (r : ReadRequest) : (w.request r).waiting = w.waiting := by
  unfold Wra.request; split_ifs <;> rfl

@[simp] theorem request_offered (w : Wra) (r : ReadRequest) : (w.request r).offered = w.offered := by
  unfold Wra.request; split_ifs <;> rfl

/-- R39: the list never comes to hold more than its size by a request. -/
theorem request_reads_length {w : Wra} (r : ReadRequest) (h : w.reads.length ≤ Config.queueSize) :
    (w.request r).reads.length ≤ Config.queueSize := by
  obtain ⟨_, hl, e⟩ | e := request_cases w r <;> rw [e]
  · simpa using hl
  · exact h

end Sys2Proof.Machine
end

