-- ==== Sys2Proof/Laws/State.lean ====
section
/-! SUPPORT. What each update of a part of the state leaves in every field, so that no proof unfolds a record update. -/

namespace Sys2Proof.Machine

variable (s : State)

/-! ### updLink -/

@[simp] theorem State.updLink_pending (i : Slot) (f : Link → Link) : (s.updLink i f).pending = s.pending := rfl
@[simp] theorem State.updLink_phase (i : Slot) (f : Link → Link) : (s.updLink i f).phase = s.phase := rfl
@[simp] theorem State.updLink_formatLatch (i : Slot) (f : Link → Link) : (s.updLink i f).formatLatch = s.formatLatch := rfl
@[simp] theorem State.updLink_mem (i : Slot) (f : Link → Link) : (s.updLink i f).mem = s.mem := rfl
@[simp] theorem State.updLink_drc (i : Slot) (f : Link → Link) : (s.updLink i f).drc = s.drc := rfl
@[simp] theorem State.updLink_wra (i : Slot) (f : Link → Link) : (s.updLink i f).wra = s.wra := rfl
@[simp] theorem State.updLink_pmp (i : Slot) (f : Link → Link) : (s.updLink i f).pmp = s.pmp := rfl
@[simp] theorem State.updLink_ssq (i : Slot) (f : Link → Link) : (s.updLink i f).ssq = s.ssq := rfl
@[simp] theorem State.updLink_inv (i : Slot) (f : Link → Link) : (s.updLink i f).inv = s.inv := rfl
@[simp] theorem State.updLink_psm (i : Slot) (f : Link → Link) : (s.updLink i f).psm = s.psm := rfl
@[simp] theorem State.updLink_pal (i : Slot) (f : Link → Link) : (s.updLink i f).pal = s.pal := rfl
@[simp] theorem State.updLink_clc (i : Slot) (f : Link → Link) : (s.updLink i f).clc = s.clc := rfl
@[simp] theorem State.updLink_ulc (i : Slot) (f : Link → Link) : (s.updLink i f).ulc = s.ulc := rfl
@[simp] theorem State.updLink_meu (i : Slot) (f : Link → Link) : (s.updLink i f).meu = s.meu := rfl
@[simp] theorem State.updLink_pins (i : Slot) (f : Link → Link) : (s.updLink i f).pins = s.pins := rfl
@[simp] theorem State.updLink_outs (i : Slot) (f : Link → Link) : (s.updLink i f).outs = s.outs := rfl
@[simp] theorem State.updLink_agenda (i : Slot) (f : Link → Link) : (s.updLink i f).agenda = s.agenda := rfl
@[simp] theorem State.updLink_held (i : Slot) (f : Link → Link) : (s.updLink i f).held = s.held := rfl
@[simp] theorem State.updLink_later (i : Slot) (f : Link → Link) : (s.updLink i f).later = s.later := rfl
@[simp] theorem State.updLink_freeDraws (i : Slot) (f : Link → Link) : (s.updLink i f).freeDraws = s.freeDraws := rfl

/-! ### updSlot -/

@[simp] theorem State.updSlot_pending (i : Slot) (f : SlotSeq → SlotSeq) : (s.updSlot i f).pending = s.pending := rfl
@[simp] theorem State.updSlot_phase (i : Slot) (f : SlotSeq → SlotSeq) : (s.updSlot i f).phase = s.phase := rfl
@[simp] theorem State.updSlot_formatLatch (i : Slot) (f : SlotSeq → SlotSeq) : (s.updSlot i f).formatLatch = s.formatLatch := rfl
@[simp] theorem State.updSlot_mem (i : Slot) (f : SlotSeq → SlotSeq) : (s.updSlot i f).mem = s.mem := rfl
@[simp] theorem State.updSlot_drc (i : Slot) (f : SlotSeq → SlotSeq) : (s.updSlot i f).drc = s.drc := rfl
@[simp] theorem State.updSlot_wra (i : Slot) (f : SlotSeq → SlotSeq) : (s.updSlot i f).wra = s.wra := rfl
@[simp] theorem State.updSlot_pmp (i : Slot) (f : SlotSeq → SlotSeq) : (s.updSlot i f).pmp = s.pmp := rfl
@[simp] theorem State.updSlot_links (i : Slot) (f : SlotSeq → SlotSeq) : (s.updSlot i f).links = s.links := rfl
@[simp] theorem State.updSlot_inv (i : Slot) (f : SlotSeq → SlotSeq) : (s.updSlot i f).inv = s.inv := rfl
@[simp] theorem State.updSlot_psm (i : Slot) (f : SlotSeq → SlotSeq) : (s.updSlot i f).psm = s.psm := rfl
@[simp] theorem State.updSlot_pal (i : Slot) (f : SlotSeq → SlotSeq) : (s.updSlot i f).pal = s.pal := rfl
@[simp] theorem State.updSlot_clc (i : Slot) (f : SlotSeq → SlotSeq) : (s.updSlot i f).clc = s.clc := rfl
@[simp] theorem State.updSlot_ulc (i : Slot) (f : SlotSeq → SlotSeq) : (s.updSlot i f).ulc = s.ulc := rfl
@[simp] theorem State.updSlot_meu (i : Slot) (f : SlotSeq → SlotSeq) : (s.updSlot i f).meu = s.meu := rfl
@[simp] theorem State.updSlot_pins (i : Slot) (f : SlotSeq → SlotSeq) : (s.updSlot i f).pins = s.pins := rfl
@[simp] theorem State.updSlot_outs (i : Slot) (f : SlotSeq → SlotSeq) : (s.updSlot i f).outs = s.outs := rfl
@[simp] theorem State.updSlot_agenda (i : Slot) (f : SlotSeq → SlotSeq) : (s.updSlot i f).agenda = s.agenda := rfl
@[simp] theorem State.updSlot_held (i : Slot) (f : SlotSeq → SlotSeq) : (s.updSlot i f).held = s.held := rfl
@[simp] theorem State.updSlot_later (i : Slot) (f : SlotSeq → SlotSeq) : (s.updSlot i f).later = s.later := rfl
@[simp] theorem State.updSlot_freeDraws (i : Slot) (f : SlotSeq → SlotSeq) : (s.updSlot i f).freeDraws = s.freeDraws := rfl

/-! ### updEntry -/

@[simp] theorem State.updEntry_pending (e : EntryNo) (f : InvEntry → InvEntry) : (s.updEntry e f).pending = s.pending := rfl
@[simp] theorem State.updEntry_phase (e : EntryNo) (f : InvEntry → InvEntry) : (s.updEntry e f).phase = s.phase := rfl
@[simp] theorem State.updEntry_formatLatch (e : EntryNo) (f : InvEntry → InvEntry) : (s.updEntry e f).formatLatch = s.formatLatch := rfl
@[simp] theorem State.updEntry_mem (e : EntryNo) (f : InvEntry → InvEntry) : (s.updEntry e f).mem = s.mem := rfl
@[simp] theorem State.updEntry_drc (e : EntryNo) (f : InvEntry → InvEntry) : (s.updEntry e f).drc = s.drc := rfl
@[simp] theorem State.updEntry_wra (e : EntryNo) (f : InvEntry → InvEntry) : (s.updEntry e f).wra = s.wra := rfl
@[simp] theorem State.updEntry_pmp (e : EntryNo) (f : InvEntry → InvEntry) : (s.updEntry e f).pmp = s.pmp := rfl
@[simp] theorem State.updEntry_links (e : EntryNo) (f : InvEntry → InvEntry) : (s.updEntry e f).links = s.links := rfl
@[simp] theorem State.updEntry_ssq (e : EntryNo) (f : InvEntry → InvEntry) : (s.updEntry e f).ssq = s.ssq := rfl
@[simp] theorem State.updEntry_psm (e : EntryNo) (f : InvEntry → InvEntry) : (s.updEntry e f).psm = s.psm := rfl
@[simp] theorem State.updEntry_pal (e : EntryNo) (f : InvEntry → InvEntry) : (s.updEntry e f).pal = s.pal := rfl
@[simp] theorem State.updEntry_clc (e : EntryNo) (f : InvEntry → InvEntry) : (s.updEntry e f).clc = s.clc := rfl
@[simp] theorem State.updEntry_ulc (e : EntryNo) (f : InvEntry → InvEntry) : (s.updEntry e f).ulc = s.ulc := rfl
@[simp] theorem State.updEntry_meu (e : EntryNo) (f : InvEntry → InvEntry) : (s.updEntry e f).meu = s.meu := rfl
@[simp] theorem State.updEntry_pins (e : EntryNo) (f : InvEntry → InvEntry) : (s.updEntry e f).pins = s.pins := rfl
@[simp] theorem State.updEntry_outs (e : EntryNo) (f : InvEntry → InvEntry) : (s.updEntry e f).outs = s.outs := rfl
@[simp] theorem State.updEntry_agenda (e : EntryNo) (f : InvEntry → InvEntry) : (s.updEntry e f).agenda = s.agenda := rfl
@[simp] theorem State.updEntry_held (e : EntryNo) (f : InvEntry → InvEntry) : (s.updEntry e f).held = s.held := rfl
@[simp] theorem State.updEntry_later (e : EntryNo) (f : InvEntry → InvEntry) : (s.updEntry e f).later = s.later := rfl
@[simp] theorem State.updEntry_freeDraws (e : EntryNo) (f : InvEntry → InvEntry) : (s.updEntry e f).freeDraws = s.freeDraws := rfl

/-! ### updBay -/

@[simp] theorem State.updBay_pending (b : ModuleBay) (f : ModuleSense → ModuleSense) : (s.updBay b f).pending = s.pending := rfl
@[simp] theorem State.updBay_phase (b : ModuleBay) (f : ModuleSense → ModuleSense) : (s.updBay b f).phase = s.phase := rfl
@[simp] theorem State.updBay_formatLatch (b : ModuleBay) (f : ModuleSense → ModuleSense) : (s.updBay b f).formatLatch = s.formatLatch := rfl
@[simp] theorem State.updBay_mem (b : ModuleBay) (f : ModuleSense → ModuleSense) : (s.updBay b f).mem = s.mem := rfl
@[simp] theorem State.updBay_drc (b : ModuleBay) (f : ModuleSense → ModuleSense) : (s.updBay b f).drc = s.drc := rfl
@[simp] theorem State.updBay_wra (b : ModuleBay) (f : ModuleSense → ModuleSense) : (s.updBay b f).wra = s.wra := rfl
@[simp] theorem State.updBay_pmp (b : ModuleBay) (f : ModuleSense → ModuleSense) : (s.updBay b f).pmp = s.pmp := rfl
@[simp] theorem State.updBay_links (b : ModuleBay) (f : ModuleSense → ModuleSense) : (s.updBay b f).links = s.links := rfl
@[simp] theorem State.updBay_ssq (b : ModuleBay) (f : ModuleSense → ModuleSense) : (s.updBay b f).ssq = s.ssq := rfl
@[simp] theorem State.updBay_psm (b : ModuleBay) (f : ModuleSense → ModuleSense) : (s.updBay b f).psm = s.psm := rfl
@[simp] theorem State.updBay_pal (b : ModuleBay) (f : ModuleSense → ModuleSense) : (s.updBay b f).pal = s.pal := rfl
@[simp] theorem State.updBay_clc (b : ModuleBay) (f : ModuleSense → ModuleSense) : (s.updBay b f).clc = s.clc := rfl
@[simp] theorem State.updBay_ulc (b : ModuleBay) (f : ModuleSense → ModuleSense) : (s.updBay b f).ulc = s.ulc := rfl
@[simp] theorem State.updBay_meu (b : ModuleBay) (f : ModuleSense → ModuleSense) : (s.updBay b f).meu = s.meu := rfl
@[simp] theorem State.updBay_pins (b : ModuleBay) (f : ModuleSense → ModuleSense) : (s.updBay b f).pins = s.pins := rfl
@[simp] theorem State.updBay_outs (b : ModuleBay) (f : ModuleSense → ModuleSense) : (s.updBay b f).outs = s.outs := rfl
@[simp] theorem State.updBay_agenda (b : ModuleBay) (f : ModuleSense → ModuleSense) : (s.updBay b f).agenda = s.agenda := rfl
@[simp] theorem State.updBay_held (b : ModuleBay) (f : ModuleSense → ModuleSense) : (s.updBay b f).held = s.held := rfl
@[simp] theorem State.updBay_later (b : ModuleBay) (f : ModuleSense → ModuleSense) : (s.updBay b f).later = s.later := rfl
@[simp] theorem State.updBay_freeDraws (b : ModuleBay) (f : ModuleSense → ModuleSense) : (s.updBay b f).freeDraws = s.freeDraws := rfl

/-! ### setVerification -/

@[simp] theorem State.setVerification_pending (i : Slot) (v : Option Verification) : (s.setVerification i v).pending = s.pending := rfl
@[simp] theorem State.setVerification_phase (i : Slot) (v : Option Verification) : (s.setVerification i v).phase = s.phase := rfl
@[simp] theorem State.setVerification_formatLatch (i : Slot) (v : Option Verification) : (s.setVerification i v).formatLatch = s.formatLatch := rfl
@[simp] theorem State.setVerification_mem (i : Slot) (v : Option Verification) : (s.setVerification i v).mem = s.mem := rfl
@[simp] theorem State.setVerification_drc (i : Slot) (v : Option Verification) : (s.setVerification i v).drc = s.drc := rfl
@[simp] theorem State.setVerification_wra (i : Slot) (v : Option Verification) : (s.setVerification i v).wra = s.wra := rfl
@[simp] theorem State.setVerification_pmp (i : Slot) (v : Option Verification) : (s.setVerification i v).pmp = s.pmp := rfl
@[simp] theorem State.setVerification_links (i : Slot) (v : Option Verification) : (s.setVerification i v).links = s.links := rfl
@[simp] theorem State.setVerification_ssq (i : Slot) (v : Option Verification) : (s.setVerification i v).ssq = s.ssq := rfl
@[simp] theorem State.setVerification_psm (i : Slot) (v : Option Verification) : (s.setVerification i v).psm = s.psm := rfl
@[simp] theorem State.setVerification_pal (i : Slot) (v : Option Verification) : (s.setVerification i v).pal = s.pal := rfl
@[simp] theorem State.setVerification_clc (i : Slot) (v : Option Verification) : (s.setVerification i v).clc = s.clc := rfl
@[simp] theorem State.setVerification_ulc (i : Slot) (v : Option Verification) : (s.setVerification i v).ulc = s.ulc := rfl
@[simp] theorem State.setVerification_meu (i : Slot) (v : Option Verification) : (s.setVerification i v).meu = s.meu := rfl
@[simp] theorem State.setVerification_pins (i : Slot) (v : Option Verification) : (s.setVerification i v).pins = s.pins := rfl
@[simp] theorem State.setVerification_outs (i : Slot) (v : Option Verification) : (s.setVerification i v).outs = s.outs := rfl
@[simp] theorem State.setVerification_agenda (i : Slot) (v : Option Verification) : (s.setVerification i v).agenda = s.agenda := rfl
@[simp] theorem State.setVerification_held (i : Slot) (v : Option Verification) : (s.setVerification i v).held = s.held := rfl
@[simp] theorem State.setVerification_later (i : Slot) (v : Option Verification) : (s.setVerification i v).later = s.later := rfl
@[simp] theorem State.setVerification_freeDraws (i : Slot) (v : Option Verification) : (s.setVerification i v).freeDraws = s.freeDraws := rfl

/-! ### updPsu -/

@[simp] theorem State.updPsu_pending (b : PsuBay) (f : Psu → Psu) : (s.updPsu b f).pending = s.pending := rfl
@[simp] theorem State.updPsu_phase (b : PsuBay) (f : Psu → Psu) : (s.updPsu b f).phase = s.phase := rfl
@[simp] theorem State.updPsu_formatLatch (b : PsuBay) (f : Psu → Psu) : (s.updPsu b f).formatLatch = s.formatLatch := rfl
@[simp] theorem State.updPsu_mem (b : PsuBay) (f : Psu → Psu) : (s.updPsu b f).mem = s.mem := rfl
@[simp] theorem State.updPsu_drc (b : PsuBay) (f : Psu → Psu) : (s.updPsu b f).drc = s.drc := rfl
@[simp] theorem State.updPsu_wra (b : PsuBay) (f : Psu → Psu) : (s.updPsu b f).wra = s.wra := rfl
@[simp] theorem State.updPsu_pmp (b : PsuBay) (f : Psu → Psu) : (s.updPsu b f).pmp = s.pmp := rfl
@[simp] theorem State.updPsu_links (b : PsuBay) (f : Psu → Psu) : (s.updPsu b f).links = s.links := rfl
@[simp] theorem State.updPsu_ssq (b : PsuBay) (f : Psu → Psu) : (s.updPsu b f).ssq = s.ssq := rfl
@[simp] theorem State.updPsu_inv (b : PsuBay) (f : Psu → Psu) : (s.updPsu b f).inv = s.inv := rfl
@[simp] theorem State.updPsu_pal (b : PsuBay) (f : Psu → Psu) : (s.updPsu b f).pal = s.pal := rfl
@[simp] theorem State.updPsu_clc (b : PsuBay) (f : Psu → Psu) : (s.updPsu b f).clc = s.clc := rfl
@[simp] theorem State.updPsu_ulc (b : PsuBay) (f : Psu → Psu) : (s.updPsu b f).ulc = s.ulc := rfl
@[simp] theorem State.updPsu_meu (b : PsuBay) (f : Psu → Psu) : (s.updPsu b f).meu = s.meu := rfl
@[simp] theorem State.updPsu_pins (b : PsuBay) (f : Psu → Psu) : (s.updPsu b f).pins = s.pins := rfl
@[simp] theorem State.updPsu_outs (b : PsuBay) (f : Psu → Psu) : (s.updPsu b f).outs = s.outs := rfl
@[simp] theorem State.updPsu_agenda (b : PsuBay) (f : Psu → Psu) : (s.updPsu b f).agenda = s.agenda := rfl
@[simp] theorem State.updPsu_held (b : PsuBay) (f : Psu → Psu) : (s.updPsu b f).held = s.held := rfl
@[simp] theorem State.updPsu_later (b : PsuBay) (f : Psu → Psu) : (s.updPsu b f).later = s.later := rfl
@[simp] theorem State.updPsu_freeDraws (b : PsuBay) (f : Psu → Psu) : (s.updPsu b f).freeDraws = s.freeDraws := rfl

/-! ### updAlloc -/

@[simp] theorem State.updAlloc_pending (i : Slot) (f : Alloc → Alloc) : (s.updAlloc i f).pending = s.pending := rfl
@[simp] theorem State.updAlloc_phase (i : Slot) (f : Alloc → Alloc) : (s.updAlloc i f).phase = s.phase := rfl
@[simp] theorem State.updAlloc_formatLatch (i : Slot) (f : Alloc → Alloc) : (s.updAlloc i f).formatLatch = s.formatLatch := rfl
@[simp] theorem State.updAlloc_mem (i : Slot) (f : Alloc → Alloc) : (s.updAlloc i f).mem = s.mem := rfl
@[simp] theorem State.updAlloc_drc (i : Slot) (f : Alloc → Alloc) : (s.updAlloc i f).drc = s.drc := rfl
@[simp] theorem State.updAlloc_wra (i : Slot) (f : Alloc → Alloc) : (s.updAlloc i f).wra = s.wra := rfl
@[simp] theorem State.updAlloc_pmp (i : Slot) (f : Alloc → Alloc) : (s.updAlloc i f).pmp = s.pmp := rfl
@[simp] theorem State.updAlloc_links (i : Slot) (f : Alloc → Alloc) : (s.updAlloc i f).links = s.links := rfl
@[simp] theorem State.updAlloc_ssq (i : Slot) (f : Alloc → Alloc) : (s.updAlloc i f).ssq = s.ssq := rfl
@[simp] theorem State.updAlloc_inv (i : Slot) (f : Alloc → Alloc) : (s.updAlloc i f).inv = s.inv := rfl
@[simp] theorem State.updAlloc_psm (i : Slot) (f : Alloc → Alloc) : (s.updAlloc i f).psm = s.psm := rfl
@[simp] theorem State.updAlloc_clc (i : Slot) (f : Alloc → Alloc) : (s.updAlloc i f).clc = s.clc := rfl
@[simp] theorem State.updAlloc_ulc (i : Slot) (f : Alloc → Alloc) : (s.updAlloc i f).ulc = s.ulc := rfl
@[simp] theorem State.updAlloc_meu (i : Slot) (f : Alloc → Alloc) : (s.updAlloc i f).meu = s.meu := rfl
@[simp] theorem State.updAlloc_pins (i : Slot) (f : Alloc → Alloc) : (s.updAlloc i f).pins = s.pins := rfl
@[simp] theorem State.updAlloc_outs (i : Slot) (f : Alloc → Alloc) : (s.updAlloc i f).outs = s.outs := rfl
@[simp] theorem State.updAlloc_agenda (i : Slot) (f : Alloc → Alloc) : (s.updAlloc i f).agenda = s.agenda := rfl
@[simp] theorem State.updAlloc_held (i : Slot) (f : Alloc → Alloc) : (s.updAlloc i f).held = s.held := rfl
@[simp] theorem State.updAlloc_later (i : Slot) (f : Alloc → Alloc) : (s.updAlloc i f).later = s.later := rfl
@[simp] theorem State.updAlloc_freeDraws (i : Slot) (f : Alloc → Alloc) : (s.updAlloc i f).freeDraws = s.freeDraws := rfl

/-! ### updFan -/

@[simp] theorem State.updFan_pending (p : FanPos) (f : Fan → Fan) : (s.updFan p f).pending = s.pending := rfl
@[simp] theorem State.updFan_phase (p : FanPos) (f : Fan → Fan) : (s.updFan p f).phase = s.phase := rfl
@[simp] theorem State.updFan_formatLatch (p : FanPos) (f : Fan → Fan) : (s.updFan p f).formatLatch = s.formatLatch := rfl
@[simp] theorem State.updFan_mem (p : FanPos) (f : Fan → Fan) : (s.updFan p f).mem = s.mem := rfl
@[simp] theorem State.updFan_drc (p : FanPos) (f : Fan → Fan) : (s.updFan p f).drc = s.drc := rfl
@[simp] theorem State.updFan_wra (p : FanPos) (f : Fan → Fan) : (s.updFan p f).wra = s.wra := rfl
@[simp] theorem State.updFan_pmp (p : FanPos) (f : Fan → Fan) : (s.updFan p f).pmp = s.pmp := rfl
@[simp] theorem State.updFan_links (p : FanPos) (f : Fan → Fan) : (s.updFan p f).links = s.links := rfl
@[simp] theorem State.updFan_ssq (p : FanPos) (f : Fan → Fan) : (s.updFan p f).ssq = s.ssq := rfl
@[simp] theorem State.updFan_inv (p : FanPos) (f : Fan → Fan) : (s.updFan p f).inv = s.inv := rfl
@[simp] theorem State.updFan_psm (p : FanPos) (f : Fan → Fan) : (s.updFan p f).psm = s.psm := rfl
@[simp] theorem State.updFan_pal (p : FanPos) (f : Fan → Fan) : (s.updFan p f).pal = s.pal := rfl
@[simp] theorem State.updFan_ulc (p : FanPos) (f : Fan → Fan) : (s.updFan p f).ulc = s.ulc := rfl
@[simp] theorem State.updFan_meu (p : FanPos) (f : Fan → Fan) : (s.updFan p f).meu = s.meu := rfl
@[simp] theorem State.updFan_pins (p : FanPos) (f : Fan → Fan) : (s.updFan p f).pins = s.pins := rfl
@[simp] theorem State.updFan_outs (p : FanPos) (f : Fan → Fan) : (s.updFan p f).outs = s.outs := rfl
@[simp] theorem State.updFan_agenda (p : FanPos) (f : Fan → Fan) : (s.updFan p f).agenda = s.agenda := rfl
@[simp] theorem State.updFan_held (p : FanPos) (f : Fan → Fan) : (s.updFan p f).held = s.held := rfl
@[simp] theorem State.updFan_later (p : FanPos) (f : Fan → Fan) : (s.updFan p f).later = s.later := rfl
@[simp] theorem State.updFan_freeDraws (p : FanPos) (f : Fan → Fan) : (s.updFan p f).freeDraws = s.freeDraws := rfl

/-! ### updThermal -/

@[simp] theorem State.updThermal_pending (i : Slot) (f : Thermal → Thermal) : (s.updThermal i f).pending = s.pending := rfl
@[simp] theorem State.updThermal_phase (i : Slot) (f : Thermal → Thermal) : (s.updThermal i f).phase = s.phase := rfl
@[simp] theorem State.updThermal_formatLatch (i : Slot) (f : Thermal → Thermal) : (s.updThermal i f).formatLatch = s.formatLatch := rfl
@[simp] theorem State.updThermal_mem (i : Slot) (f : Thermal → Thermal) : (s.updThermal i f).mem = s.mem := rfl
@[simp] theorem State.updThermal_drc (i : Slot) (f : Thermal → Thermal) : (s.updThermal i f).drc = s.drc := rfl
@[simp] theorem State.updThermal_wra (i : Slot) (f : Thermal → Thermal) : (s.updThermal i f).wra = s.wra := rfl
@[simp] theorem State.updThermal_pmp (i : Slot) (f : Thermal → Thermal) : (s.updThermal i f).pmp = s.pmp := rfl
@[simp] theorem State.updThermal_links (i : Slot) (f : Thermal → Thermal) : (s.updThermal i f).links = s.links := rfl
@[simp] theorem State.updThermal_ssq (i : Slot) (f : Thermal → Thermal) : (s.updThermal i f).ssq = s.ssq := rfl
@[simp] theorem State.updThermal_inv (i : Slot) (f : Thermal → Thermal) : (s.updThermal i f).inv = s.inv := rfl
@[simp] theorem State.updThermal_psm (i : Slot) (f : Thermal → Thermal) : (s.updThermal i f).psm = s.psm := rfl
@[simp] theorem State.updThermal_pal (i : Slot) (f : Thermal → Thermal) : (s.updThermal i f).pal = s.pal := rfl
@[simp] theorem State.updThermal_ulc (i : Slot) (f : Thermal → Thermal) : (s.updThermal i f).ulc = s.ulc := rfl
@[simp] theorem State.updThermal_meu (i : Slot) (f : Thermal → Thermal) : (s.updThermal i f).meu = s.meu := rfl
@[simp] theorem State.updThermal_pins (i : Slot) (f : Thermal → Thermal) : (s.updThermal i f).pins = s.pins := rfl
@[simp] theorem State.updThermal_outs (i : Slot) (f : Thermal → Thermal) : (s.updThermal i f).outs = s.outs := rfl
@[simp] theorem State.updThermal_agenda (i : Slot) (f : Thermal → Thermal) : (s.updThermal i f).agenda = s.agenda := rfl
@[simp] theorem State.updThermal_held (i : Slot) (f : Thermal → Thermal) : (s.updThermal i f).held = s.held := rfl
@[simp] theorem State.updThermal_later (i : Slot) (f : Thermal → Thermal) : (s.updThermal i f).later = s.later := rfl
@[simp] theorem State.updThermal_freeDraws (i : Slot) (f : Thermal → Thermal) : (s.updThermal i f).freeDraws = s.freeDraws := rfl

/-! ### updZone -/

@[simp] theorem State.updZone_pending (z : Zone) (f : ZoneState → ZoneState) : (s.updZone z f).pending = s.pending := rfl
@[simp] theorem State.updZone_phase (z : Zone) (f : ZoneState → ZoneState) : (s.updZone z f).phase = s.phase := rfl
@[simp] theorem State.updZone_formatLatch (z : Zone) (f : ZoneState → ZoneState) : (s.updZone z f).formatLatch = s.formatLatch := rfl
@[simp] theorem State.updZone_mem (z : Zone) (f : ZoneState → ZoneState) : (s.updZone z f).mem = s.mem := rfl
@[simp] theorem State.updZone_drc (z : Zone) (f : ZoneState → ZoneState) : (s.updZone z f).drc = s.drc := rfl
@[simp] theorem State.updZone_wra (z : Zone) (f : ZoneState → ZoneState) : (s.updZone z f).wra = s.wra := rfl
@[simp] theorem State.updZone_pmp (z : Zone) (f : ZoneState → ZoneState) : (s.updZone z f).pmp = s.pmp := rfl
@[simp] theorem State.updZone_links (z : Zone) (f : ZoneState → ZoneState) : (s.updZone z f).links = s.links := rfl
@[simp] theorem State.updZone_ssq (z : Zone) (f : ZoneState → ZoneState) : (s.updZone z f).ssq = s.ssq := rfl
@[simp] theorem State.updZone_inv (z : Zone) (f : ZoneState → ZoneState) : (s.updZone z f).inv = s.inv := rfl
@[simp] theorem State.updZone_psm (z : Zone) (f : ZoneState → ZoneState) : (s.updZone z f).psm = s.psm := rfl
@[simp] theorem State.updZone_pal (z : Zone) (f : ZoneState → ZoneState) : (s.updZone z f).pal = s.pal := rfl
@[simp] theorem State.updZone_ulc (z : Zone) (f : ZoneState → ZoneState) : (s.updZone z f).ulc = s.ulc := rfl
@[simp] theorem State.updZone_meu (z : Zone) (f : ZoneState → ZoneState) : (s.updZone z f).meu = s.meu := rfl
@[simp] theorem State.updZone_pins (z : Zone) (f : ZoneState → ZoneState) : (s.updZone z f).pins = s.pins := rfl
@[simp] theorem State.updZone_outs (z : Zone) (f : ZoneState → ZoneState) : (s.updZone z f).outs = s.outs := rfl
@[simp] theorem State.updZone_agenda (z : Zone) (f : ZoneState → ZoneState) : (s.updZone z f).agenda = s.agenda := rfl
@[simp] theorem State.updZone_held (z : Zone) (f : ZoneState → ZoneState) : (s.updZone z f).held = s.held := rfl
@[simp] theorem State.updZone_later (z : Zone) (f : ZoneState → ZoneState) : (s.updZone z f).later = s.later := rfl
@[simp] theorem State.updZone_freeDraws (z : Zone) (f : ZoneState → ZoneState) : (s.updZone z f).freeDraws = s.freeDraws := rfl

/-! ### updUplink -/

@[simp] theorem State.updUplink_pending (b : UplinkBay) (f : Uplink → Uplink) : (s.updUplink b f).pending = s.pending := rfl
@[simp] theorem State.updUplink_phase (b : UplinkBay) (f : Uplink → Uplink) : (s.updUplink b f).phase = s.phase := rfl
@[simp] theorem State.updUplink_formatLatch (b : UplinkBay) (f : Uplink → Uplink) : (s.updUplink b f).formatLatch = s.formatLatch := rfl
@[simp] theorem State.updUplink_mem (b : UplinkBay) (f : Uplink → Uplink) : (s.updUplink b f).mem = s.mem := rfl
@[simp] theorem State.updUplink_drc (b : UplinkBay) (f : Uplink → Uplink) : (s.updUplink b f).drc = s.drc := rfl
@[simp] theorem State.updUplink_wra (b : UplinkBay) (f : Uplink → Uplink) : (s.updUplink b f).wra = s.wra := rfl
@[simp] theorem State.updUplink_pmp (b : UplinkBay) (f : Uplink → Uplink) : (s.updUplink b f).pmp = s.pmp := rfl
@[simp] theorem State.updUplink_links (b : UplinkBay) (f : Uplink → Uplink) : (s.updUplink b f).links = s.links := rfl
@[simp] theorem State.updUplink_ssq (b : UplinkBay) (f : Uplink → Uplink) : (s.updUplink b f).ssq = s.ssq := rfl
@[simp] theorem State.updUplink_inv (b : UplinkBay) (f : Uplink → Uplink) : (s.updUplink b f).inv = s.inv := rfl
@[simp] theorem State.updUplink_psm (b : UplinkBay) (f : Uplink → Uplink) : (s.updUplink b f).psm = s.psm := rfl
@[simp] theorem State.updUplink_pal (b : UplinkBay) (f : Uplink → Uplink) : (s.updUplink b f).pal = s.pal := rfl
@[simp] theorem State.updUplink_clc (b : UplinkBay) (f : Uplink → Uplink) : (s.updUplink b f).clc = s.clc := rfl
@[simp] theorem State.updUplink_meu (b : UplinkBay) (f : Uplink → Uplink) : (s.updUplink b f).meu = s.meu := rfl
@[simp] theorem State.updUplink_pins (b : UplinkBay) (f : Uplink → Uplink) : (s.updUplink b f).pins = s.pins := rfl
@[simp] theorem State.updUplink_outs (b : UplinkBay) (f : Uplink → Uplink) : (s.updUplink b f).outs = s.outs := rfl
@[simp] theorem State.updUplink_agenda (b : UplinkBay) (f : Uplink → Uplink) : (s.updUplink b f).agenda = s.agenda := rfl
@[simp] theorem State.updUplink_held (b : UplinkBay) (f : Uplink → Uplink) : (s.updUplink b f).held = s.held := rfl
@[simp] theorem State.updUplink_later (b : UplinkBay) (f : Uplink → Uplink) : (s.updUplink b f).later = s.later := rfl
@[simp] theorem State.updUplink_freeDraws (b : UplinkBay) (f : Uplink → Uplink) : (s.updUplink b f).freeDraws = s.freeDraws := rfl

/-! ### updPlacement -/

@[simp] theorem State.updPlacement_pending (i : Slot) (f : Placement → Placement) : (s.updPlacement i f).pending = s.pending := rfl
@[simp] theorem State.updPlacement_phase (i : Slot) (f : Placement → Placement) : (s.updPlacement i f).phase = s.phase := rfl
@[simp] theorem State.updPlacement_formatLatch (i : Slot) (f : Placement → Placement) : (s.updPlacement i f).formatLatch = s.formatLatch := rfl
@[simp] theorem State.updPlacement_mem (i : Slot) (f : Placement → Placement) : (s.updPlacement i f).mem = s.mem := rfl
@[simp] theorem State.updPlacement_drc (i : Slot) (f : Placement → Placement) : (s.updPlacement i f).drc = s.drc := rfl
@[simp] theorem State.updPlacement_wra (i : Slot) (f : Placement → Placement) : (s.updPlacement i f).wra = s.wra := rfl
@[simp] theorem State.updPlacement_pmp (i : Slot) (f : Placement → Placement) : (s.updPlacement i f).pmp = s.pmp := rfl
@[simp] theorem State.updPlacement_links (i : Slot) (f : Placement → Placement) : (s.updPlacement i f).links = s.links := rfl
@[simp] theorem State.updPlacement_ssq (i : Slot) (f : Placement → Placement) : (s.updPlacement i f).ssq = s.ssq := rfl
@[simp] theorem State.updPlacement_inv (i : Slot) (f : Placement → Placement) : (s.updPlacement i f).inv = s.inv := rfl
@[simp] theorem State.updPlacement_psm (i : Slot) (f : Placement → Placement) : (s.updPlacement i f).psm = s.psm := rfl
@[simp] theorem State.updPlacement_pal (i : Slot) (f : Placement → Placement) : (s.updPlacement i f).pal = s.pal := rfl
@[simp] theorem State.updPlacement_clc (i : Slot) (f : Placement → Placement) : (s.updPlacement i f).clc = s.clc := rfl
@[simp] theorem State.updPlacement_meu (i : Slot) (f : Placement → Placement) : (s.updPlacement i f).meu = s.meu := rfl
@[simp] theorem State.updPlacement_pins (i : Slot) (f : Placement → Placement) : (s.updPlacement i f).pins = s.pins := rfl
@[simp] theorem State.updPlacement_outs (i : Slot) (f : Placement → Placement) : (s.updPlacement i f).outs = s.outs := rfl
@[simp] theorem State.updPlacement_agenda (i : Slot) (f : Placement → Placement) : (s.updPlacement i f).agenda = s.agenda := rfl
@[simp] theorem State.updPlacement_held (i : Slot) (f : Placement → Placement) : (s.updPlacement i f).held = s.held := rfl
@[simp] theorem State.updPlacement_later (i : Slot) (f : Placement → Placement) : (s.updPlacement i f).later = s.later := rfl
@[simp] theorem State.updPlacement_freeDraws (i : Slot) (f : Placement → Placement) : (s.updPlacement i f).freeDraws = s.freeDraws := rfl

/-! ### updMeu -/

@[simp] theorem State.updMeu_pending (f : Meu → Meu) : (s.updMeu f).pending = s.pending := rfl
@[simp] theorem State.updMeu_phase (f : Meu → Meu) : (s.updMeu f).phase = s.phase := rfl
@[simp] theorem State.updMeu_formatLatch (f : Meu → Meu) : (s.updMeu f).formatLatch = s.formatLatch := rfl
@[simp] theorem State.updMeu_mem (f : Meu → Meu) : (s.updMeu f).mem = s.mem := rfl
@[simp] theorem State.updMeu_drc (f : Meu → Meu) : (s.updMeu f).drc = s.drc := rfl
@[simp] theorem State.updMeu_wra (f : Meu → Meu) : (s.updMeu f).wra = s.wra := rfl
@[simp] theorem State.updMeu_pmp (f : Meu → Meu) : (s.updMeu f).pmp = s.pmp := rfl
@[simp] theorem State.updMeu_links (f : Meu → Meu) : (s.updMeu f).links = s.links := rfl
@[simp] theorem State.updMeu_ssq (f : Meu → Meu) : (s.updMeu f).ssq = s.ssq := rfl
@[simp] theorem State.updMeu_inv (f : Meu → Meu) : (s.updMeu f).inv = s.inv := rfl
@[simp] theorem State.updMeu_psm (f : Meu → Meu) : (s.updMeu f).psm = s.psm := rfl
@[simp] theorem State.updMeu_pal (f : Meu → Meu) : (s.updMeu f).pal = s.pal := rfl
@[simp] theorem State.updMeu_clc (f : Meu → Meu) : (s.updMeu f).clc = s.clc := rfl
@[simp] theorem State.updMeu_ulc (f : Meu → Meu) : (s.updMeu f).ulc = s.ulc := rfl
@[simp] theorem State.updMeu_pins (f : Meu → Meu) : (s.updMeu f).pins = s.pins := rfl
@[simp] theorem State.updMeu_outs (f : Meu → Meu) : (s.updMeu f).outs = s.outs := rfl
@[simp] theorem State.updMeu_agenda (f : Meu → Meu) : (s.updMeu f).agenda = s.agenda := rfl
@[simp] theorem State.updMeu_held (f : Meu → Meu) : (s.updMeu f).held = s.held := rfl
@[simp] theorem State.updMeu_later (f : Meu → Meu) : (s.updMeu f).later = s.later := rfl
@[simp] theorem State.updMeu_freeDraws (f : Meu → Meu) : (s.updMeu f).freeDraws = s.freeDraws := rfl

/-! ### updPal -/

@[simp] theorem State.updPal_pending (f : Pal → Pal) : (s.updPal f).pending = s.pending := rfl
@[simp] theorem State.updPal_phase (f : Pal → Pal) : (s.updPal f).phase = s.phase := rfl
@[simp] theorem State.updPal_formatLatch (f : Pal → Pal) : (s.updPal f).formatLatch = s.formatLatch := rfl
@[simp] theorem State.updPal_mem (f : Pal → Pal) : (s.updPal f).mem = s.mem := rfl
@[simp] theorem State.updPal_drc (f : Pal → Pal) : (s.updPal f).drc = s.drc := rfl
@[simp] theorem State.updPal_wra (f : Pal → Pal) : (s.updPal f).wra = s.wra := rfl
@[simp] theorem State.updPal_pmp (f : Pal → Pal) : (s.updPal f).pmp = s.pmp := rfl
@[simp] theorem State.updPal_links (f : Pal → Pal) : (s.updPal f).links = s.links := rfl
@[simp] theorem State.updPal_ssq (f : Pal → Pal) : (s.updPal f).ssq = s.ssq := rfl
@[simp] theorem State.updPal_inv (f : Pal → Pal) : (s.updPal f).inv = s.inv := rfl
@[simp] theorem State.updPal_psm (f : Pal → Pal) : (s.updPal f).psm = s.psm := rfl
@[simp] theorem State.updPal_clc (f : Pal → Pal) : (s.updPal f).clc = s.clc := rfl
@[simp] theorem State.updPal_ulc (f : Pal → Pal) : (s.updPal f).ulc = s.ulc := rfl
@[simp] theorem State.updPal_meu (f : Pal → Pal) : (s.updPal f).meu = s.meu := rfl
@[simp] theorem State.updPal_pins (f : Pal → Pal) : (s.updPal f).pins = s.pins := rfl
@[simp] theorem State.updPal_outs (f : Pal → Pal) : (s.updPal f).outs = s.outs := rfl
@[simp] theorem State.updPal_agenda (f : Pal → Pal) : (s.updPal f).agenda = s.agenda := rfl
@[simp] theorem State.updPal_held (f : Pal → Pal) : (s.updPal f).held = s.held := rfl
@[simp] theorem State.updPal_later (f : Pal → Pal) : (s.updPal f).later = s.later := rfl
@[simp] theorem State.updPal_freeDraws (f : Pal → Pal) : (s.updPal f).freeDraws = s.freeDraws := rfl

/-! ### updPins -/

@[simp] theorem State.updPins_pending (f : Pins → Pins) : (s.updPins f).pending = s.pending := rfl
@[simp] theorem State.updPins_phase (f : Pins → Pins) : (s.updPins f).phase = s.phase := rfl
@[simp] theorem State.updPins_formatLatch (f : Pins → Pins) : (s.updPins f).formatLatch = s.formatLatch := rfl
@[simp] theorem State.updPins_mem (f : Pins → Pins) : (s.updPins f).mem = s.mem := rfl
@[simp] theorem State.updPins_drc (f : Pins → Pins) : (s.updPins f).drc = s.drc := rfl
@[simp] theorem State.updPins_wra (f : Pins → Pins) : (s.updPins f).wra = s.wra := rfl
@[simp] theorem State.updPins_pmp (f : Pins → Pins) : (s.updPins f).pmp = s.pmp := rfl
@[simp] theorem State.updPins_links (f : Pins → Pins) : (s.updPins f).links = s.links := rfl
@[simp] theorem State.updPins_ssq (f : Pins → Pins) : (s.updPins f).ssq = s.ssq := rfl
@[simp] theorem State.updPins_inv (f : Pins → Pins) : (s.updPins f).inv = s.inv := rfl
@[simp] theorem State.updPins_psm (f : Pins → Pins) : (s.updPins f).psm = s.psm := rfl
@[simp] theorem State.updPins_pal (f : Pins → Pins) : (s.updPins f).pal = s.pal := rfl
@[simp] theorem State.updPins_clc (f : Pins → Pins) : (s.updPins f).clc = s.clc := rfl
@[simp] theorem State.updPins_ulc (f : Pins → Pins) : (s.updPins f).ulc = s.ulc := rfl
@[simp] theorem State.updPins_meu (f : Pins → Pins) : (s.updPins f).meu = s.meu := rfl
@[simp] theorem State.updPins_outs (f : Pins → Pins) : (s.updPins f).outs = s.outs := rfl
@[simp] theorem State.updPins_agenda (f : Pins → Pins) : (s.updPins f).agenda = s.agenda := rfl
@[simp] theorem State.updPins_held (f : Pins → Pins) : (s.updPins f).held = s.held := rfl
@[simp] theorem State.updPins_later (f : Pins → Pins) : (s.updPins f).later = s.later := rfl
@[simp] theorem State.updPins_freeDraws (f : Pins → Pins) : (s.updPins f).freeDraws = s.freeDraws := rfl

/-! ### updPmp -/

@[simp] theorem State.updPmp_pending (f : Pmp → Pmp) : (s.updPmp f).pending = s.pending := rfl
@[simp] theorem State.updPmp_phase (f : Pmp → Pmp) : (s.updPmp f).phase = s.phase := rfl
@[simp] theorem State.updPmp_formatLatch (f : Pmp → Pmp) : (s.updPmp f).formatLatch = s.formatLatch := rfl
@[simp] theorem State.updPmp_mem (f : Pmp → Pmp) : (s.updPmp f).mem = s.mem := rfl
@[simp] theorem State.updPmp_drc (f : Pmp → Pmp) : (s.updPmp f).drc = s.drc := rfl
@[simp] theorem State.updPmp_wra (f : Pmp → Pmp) : (s.updPmp f).wra = s.wra := rfl
@[simp] theorem State.updPmp_links (f : Pmp → Pmp) : (s.updPmp f).links = s.links := rfl
@[simp] theorem State.updPmp_ssq (f : Pmp → Pmp) : (s.updPmp f).ssq = s.ssq := rfl
@[simp] theorem State.updPmp_inv (f : Pmp → Pmp) : (s.updPmp f).inv = s.inv := rfl
@[simp] theorem State.updPmp_psm (f : Pmp → Pmp) : (s.updPmp f).psm = s.psm := rfl
@[simp] theorem State.updPmp_pal (f : Pmp → Pmp) : (s.updPmp f).pal = s.pal := rfl
@[simp] theorem State.updPmp_clc (f : Pmp → Pmp) : (s.updPmp f).clc = s.clc := rfl
@[simp] theorem State.updPmp_ulc (f : Pmp → Pmp) : (s.updPmp f).ulc = s.ulc := rfl
@[simp] theorem State.updPmp_meu (f : Pmp → Pmp) : (s.updPmp f).meu = s.meu := rfl
@[simp] theorem State.updPmp_pins (f : Pmp → Pmp) : (s.updPmp f).pins = s.pins := rfl
@[simp] theorem State.updPmp_outs (f : Pmp → Pmp) : (s.updPmp f).outs = s.outs := rfl
@[simp] theorem State.updPmp_agenda (f : Pmp → Pmp) : (s.updPmp f).agenda = s.agenda := rfl
@[simp] theorem State.updPmp_held (f : Pmp → Pmp) : (s.updPmp f).held = s.held := rfl
@[simp] theorem State.updPmp_later (f : Pmp → Pmp) : (s.updPmp f).later = s.later := rfl
@[simp] theorem State.updPmp_freeDraws (f : Pmp → Pmp) : (s.updPmp f).freeDraws = s.freeDraws := rfl

/-! ### updSsq -/

@[simp] theorem State.updSsq_pending (f : Ssq → Ssq) : (s.updSsq f).pending = s.pending := rfl
@[simp] theorem State.updSsq_phase (f : Ssq → Ssq) : (s.updSsq f).phase = s.phase := rfl
@[simp] theorem State.updSsq_formatLatch (f : Ssq → Ssq) : (s.updSsq f).formatLatch = s.formatLatch := rfl
@[simp] theorem State.updSsq_mem (f : Ssq → Ssq) : (s.updSsq f).mem = s.mem := rfl
@[simp] theorem State.updSsq_drc (f : Ssq → Ssq) : (s.updSsq f).drc = s.drc := rfl
@[simp] theorem State.updSsq_wra (f : Ssq → Ssq) : (s.updSsq f).wra = s.wra := rfl
@[simp] theorem State.updSsq_pmp (f : Ssq → Ssq) : (s.updSsq f).pmp = s.pmp := rfl
@[simp] theorem State.updSsq_links (f : Ssq → Ssq) : (s.updSsq f).links = s.links := rfl
@[simp] theorem State.updSsq_inv (f : Ssq → Ssq) : (s.updSsq f).inv = s.inv := rfl
@[simp] theorem State.updSsq_psm (f : Ssq → Ssq) : (s.updSsq f).psm = s.psm := rfl
@[simp] theorem State.updSsq_pal (f : Ssq → Ssq) : (s.updSsq f).pal = s.pal := rfl
@[simp] theorem State.updSsq_clc (f : Ssq → Ssq) : (s.updSsq f).clc = s.clc := rfl
@[simp] theorem State.updSsq_ulc (f : Ssq → Ssq) : (s.updSsq f).ulc = s.ulc := rfl
@[simp] theorem State.updSsq_meu (f : Ssq → Ssq) : (s.updSsq f).meu = s.meu := rfl
@[simp] theorem State.updSsq_pins (f : Ssq → Ssq) : (s.updSsq f).pins = s.pins := rfl
@[simp] theorem State.updSsq_outs (f : Ssq → Ssq) : (s.updSsq f).outs = s.outs := rfl
@[simp] theorem State.updSsq_agenda (f : Ssq → Ssq) : (s.updSsq f).agenda = s.agenda := rfl
@[simp] theorem State.updSsq_held (f : Ssq → Ssq) : (s.updSsq f).held = s.held := rfl
@[simp] theorem State.updSsq_later (f : Ssq → Ssq) : (s.updSsq f).later = s.later := rfl
@[simp] theorem State.updSsq_freeDraws (f : Ssq → Ssq) : (s.updSsq f).freeDraws = s.freeDraws := rfl

/-! ### updPsm -/

@[simp] theorem State.updPsm_pending (f : Psm → Psm) : (s.updPsm f).pending = s.pending := rfl
@[simp] theorem State.updPsm_phase (f : Psm → Psm) : (s.updPsm f).phase = s.phase := rfl
@[simp] theorem State.updPsm_formatLatch (f : Psm → Psm) : (s.updPsm f).formatLatch = s.formatLatch := rfl
@[simp] theorem State.updPsm_mem (f : Psm → Psm) : (s.updPsm f).mem = s.mem := rfl
@[simp] theorem State.updPsm_drc (f : Psm → Psm) : (s.updPsm f).drc = s.drc := rfl
@[simp] theorem State.updPsm_wra (f : Psm → Psm) : (s.updPsm f).wra = s.wra := rfl
@[simp] theorem State.updPsm_pmp (f : Psm → Psm) : (s.updPsm f).pmp = s.pmp := rfl
@[simp] theorem State.updPsm_links (f : Psm → Psm) : (s.updPsm f).links = s.links := rfl
@[simp] theorem State.updPsm_ssq (f : Psm → Psm) : (s.updPsm f).ssq = s.ssq := rfl
@[simp] theorem State.updPsm_inv (f : Psm → Psm) : (s.updPsm f).inv = s.inv := rfl
@[simp] theorem State.updPsm_pal (f : Psm → Psm) : (s.updPsm f).pal = s.pal := rfl
@[simp] theorem State.updPsm_clc (f : Psm → Psm) : (s.updPsm f).clc = s.clc := rfl
@[simp] theorem State.updPsm_ulc (f : Psm → Psm) : (s.updPsm f).ulc = s.ulc := rfl
@[simp] theorem State.updPsm_meu (f : Psm → Psm) : (s.updPsm f).meu = s.meu := rfl
@[simp] theorem State.updPsm_pins (f : Psm → Psm) : (s.updPsm f).pins = s.pins := rfl
@[simp] theorem State.updPsm_outs (f : Psm → Psm) : (s.updPsm f).outs = s.outs := rfl
@[simp] theorem State.updPsm_agenda (f : Psm → Psm) : (s.updPsm f).agenda = s.agenda := rfl
@[simp] theorem State.updPsm_held (f : Psm → Psm) : (s.updPsm f).held = s.held := rfl
@[simp] theorem State.updPsm_later (f : Psm → Psm) : (s.updPsm f).later = s.later := rfl
@[simp] theorem State.updPsm_freeDraws (f : Psm → Psm) : (s.updPsm f).freeDraws = s.freeDraws := rfl

/-! ### updUlc -/

@[simp] theorem State.updUlc_pending (f : Ulc → Ulc) : (s.updUlc f).pending = s.pending := rfl
@[simp] theorem State.updUlc_phase (f : Ulc → Ulc) : (s.updUlc f).phase = s.phase := rfl
@[simp] theorem State.updUlc_formatLatch (f : Ulc → Ulc) : (s.updUlc f).formatLatch = s.formatLatch := rfl
@[simp] theorem State.updUlc_mem (f : Ulc → Ulc) : (s.updUlc f).mem = s.mem := rfl
@[simp] theorem State.updUlc_drc (f : Ulc → Ulc) : (s.updUlc f).drc = s.drc := rfl
@[simp] theorem State.updUlc_wra (f : Ulc → Ulc) : (s.updUlc f).wra = s.wra := rfl
@[simp] theorem State.updUlc_pmp (f : Ulc → Ulc) : (s.updUlc f).pmp = s.pmp := rfl
@[simp] theorem State.updUlc_links (f : Ulc → Ulc) : (s.updUlc f).links = s.links := rfl
@[simp] theorem State.updUlc_ssq (f : Ulc → Ulc) : (s.updUlc f).ssq = s.ssq := rfl
@[simp] theorem State.updUlc_inv (f : Ulc → Ulc) : (s.updUlc f).inv = s.inv := rfl
@[simp] theorem State.updUlc_psm (f : Ulc → Ulc) : (s.updUlc f).psm = s.psm := rfl
@[simp] theorem State.updUlc_pal (f : Ulc → Ulc) : (s.updUlc f).pal = s.pal := rfl
@[simp] theorem State.updUlc_clc (f : Ulc → Ulc) : (s.updUlc f).clc = s.clc := rfl
@[simp] theorem State.updUlc_meu (f : Ulc → Ulc) : (s.updUlc f).meu = s.meu := rfl
@[simp] theorem State.updUlc_pins (f : Ulc → Ulc) : (s.updUlc f).pins = s.pins := rfl
@[simp] theorem State.updUlc_outs (f : Ulc → Ulc) : (s.updUlc f).outs = s.outs := rfl
@[simp] theorem State.updUlc_agenda (f : Ulc → Ulc) : (s.updUlc f).agenda = s.agenda := rfl
@[simp] theorem State.updUlc_held (f : Ulc → Ulc) : (s.updUlc f).held = s.held := rfl
@[simp] theorem State.updUlc_later (f : Ulc → Ulc) : (s.updUlc f).later = s.later := rfl
@[simp] theorem State.updUlc_freeDraws (f : Ulc → Ulc) : (s.updUlc f).freeDraws = s.freeDraws := rfl

/-! ### updFrame -/

@[simp] theorem State.updFrame_pending (i : Slot) (f : Frame → Frame) : (s.updFrame i f).pending = s.pending := rfl
@[simp] theorem State.updFrame_phase (i : Slot) (f : Frame → Frame) : (s.updFrame i f).phase = s.phase := rfl
@[simp] theorem State.updFrame_formatLatch (i : Slot) (f : Frame → Frame) : (s.updFrame i f).formatLatch = s.formatLatch := rfl
@[simp] theorem State.updFrame_mem (i : Slot) (f : Frame → Frame) : (s.updFrame i f).mem = s.mem := rfl
@[simp] theorem State.updFrame_drc (i : Slot) (f : Frame → Frame) : (s.updFrame i f).drc = s.drc := rfl
@[simp] theorem State.updFrame_wra (i : Slot) (f : Frame → Frame) : (s.updFrame i f).wra = s.wra := rfl
@[simp] theorem State.updFrame_pmp (i : Slot) (f : Frame → Frame) : (s.updFrame i f).pmp = s.pmp := rfl
@[simp] theorem State.updFrame_ssq (i : Slot) (f : Frame → Frame) : (s.updFrame i f).ssq = s.ssq := rfl
@[simp] theorem State.updFrame_inv (i : Slot) (f : Frame → Frame) : (s.updFrame i f).inv = s.inv := rfl
@[simp] theorem State.updFrame_psm (i : Slot) (f : Frame → Frame) : (s.updFrame i f).psm = s.psm := rfl
@[simp] theorem State.updFrame_pal (i : Slot) (f : Frame → Frame) : (s.updFrame i f).pal = s.pal := rfl
@[simp] theorem State.updFrame_clc (i : Slot) (f : Frame → Frame) : (s.updFrame i f).clc = s.clc := rfl
@[simp] theorem State.updFrame_ulc (i : Slot) (f : Frame → Frame) : (s.updFrame i f).ulc = s.ulc := rfl
@[simp] theorem State.updFrame_meu (i : Slot) (f : Frame → Frame) : (s.updFrame i f).meu = s.meu := rfl
@[simp] theorem State.updFrame_pins (i : Slot) (f : Frame → Frame) : (s.updFrame i f).pins = s.pins := rfl
@[simp] theorem State.updFrame_outs (i : Slot) (f : Frame → Frame) : (s.updFrame i f).outs = s.outs := rfl
@[simp] theorem State.updFrame_agenda (i : Slot) (f : Frame → Frame) : (s.updFrame i f).agenda = s.agenda := rfl
@[simp] theorem State.updFrame_held (i : Slot) (f : Frame → Frame) : (s.updFrame i f).held = s.held := rfl
@[simp] theorem State.updFrame_later (i : Slot) (f : Frame → Frame) : (s.updFrame i f).later = s.later := rfl
@[simp] theorem State.updFrame_freeDraws (i : Slot) (f : Frame → Frame) : (s.updFrame i f).freeDraws = s.freeDraws := rfl

/-! ### offer -/

@[simp] theorem State.offer_pending (u : Update) : (s.offer u).pending = s.pending := rfl
@[simp] theorem State.offer_phase (u : Update) : (s.offer u).phase = s.phase := rfl
@[simp] theorem State.offer_formatLatch (u : Update) : (s.offer u).formatLatch = s.formatLatch := rfl
@[simp] theorem State.offer_mem (u : Update) : (s.offer u).mem = s.mem := rfl
@[simp] theorem State.offer_drc (u : Update) : (s.offer u).drc = s.drc := rfl
@[simp] theorem State.offer_pmp (u : Update) : (s.offer u).pmp = s.pmp := rfl
@[simp] theorem State.offer_links (u : Update) : (s.offer u).links = s.links := rfl
@[simp] theorem State.offer_ssq (u : Update) : (s.offer u).ssq = s.ssq := rfl
@[simp] theorem State.offer_inv (u : Update) : (s.offer u).inv = s.inv := rfl
@[simp] theorem State.offer_psm (u : Update) : (s.offer u).psm = s.psm := rfl
@[simp] theorem State.offer_pal (u : Update) : (s.offer u).pal = s.pal := rfl
@[simp] theorem State.offer_clc (u : Update) : (s.offer u).clc = s.clc := rfl
@[simp] theorem State.offer_ulc (u : Update) : (s.offer u).ulc = s.ulc := rfl
@[simp] theorem State.offer_meu (u : Update) : (s.offer u).meu = s.meu := rfl
@[simp] theorem State.offer_pins (u : Update) : (s.offer u).pins = s.pins := rfl
@[simp] theorem State.offer_outs (u : Update) : (s.offer u).outs = s.outs := rfl
@[simp] theorem State.offer_agenda (u : Update) : (s.offer u).agenda = s.agenda := rfl
@[simp] theorem State.offer_held (u : Update) : (s.offer u).held = s.held := rfl
@[simp] theorem State.offer_later (u : Update) : (s.offer u).later = s.later := rfl
@[simp] theorem State.offer_freeDraws (u : Update) : (s.offer u).freeDraws = s.freeDraws := rfl

/-! ### force -/

@[simp] theorem State.force_pending (off : Nat) (m : Word) : (s.force off m).pending = s.pending := rfl
@[simp] theorem State.force_phase (off : Nat) (m : Word) : (s.force off m).phase = s.phase := rfl
@[simp] theorem State.force_formatLatch (off : Nat) (m : Word) : (s.force off m).formatLatch = s.formatLatch := rfl
@[simp] theorem State.force_mem (off : Nat) (m : Word) : (s.force off m).mem = s.mem := rfl
@[simp] theorem State.force_drc (off : Nat) (m : Word) : (s.force off m).drc = s.drc := rfl
@[simp] theorem State.force_pmp (off : Nat) (m : Word) : (s.force off m).pmp = s.pmp := rfl
@[simp] theorem State.force_links (off : Nat) (m : Word) : (s.force off m).links = s.links := rfl
@[simp] theorem State.force_ssq (off : Nat) (m : Word) : (s.force off m).ssq = s.ssq := rfl
@[simp] theorem State.force_inv (off : Nat) (m : Word) : (s.force off m).inv = s.inv := rfl
@[simp] theorem State.force_psm (off : Nat) (m : Word) : (s.force off m).psm = s.psm := rfl
@[simp] theorem State.force_pal (off : Nat) (m : Word) : (s.force off m).pal = s.pal := rfl
@[simp] theorem State.force_clc (off : Nat) (m : Word) : (s.force off m).clc = s.clc := rfl
@[simp] theorem State.force_ulc (off : Nat) (m : Word) : (s.force off m).ulc = s.ulc := rfl
@[simp] theorem State.force_meu (off : Nat) (m : Word) : (s.force off m).meu = s.meu := rfl
@[simp] theorem State.force_pins (off : Nat) (m : Word) : (s.force off m).pins = s.pins := rfl
@[simp] theorem State.force_outs (off : Nat) (m : Word) : (s.force off m).outs = s.outs := rfl
@[simp] theorem State.force_agenda (off : Nat) (m : Word) : (s.force off m).agenda = s.agenda := rfl
@[simp] theorem State.force_held (off : Nat) (m : Word) : (s.force off m).held = s.held := rfl
@[simp] theorem State.force_later (off : Nat) (m : Word) : (s.force off m).later = s.later := rfl
@[simp] theorem State.force_freeDraws (off : Nat) (m : Word) : (s.force off m).freeDraws = s.freeDraws := rfl

/-! ### forceWord -/

@[simp] theorem State.forceWord_pending (off : Nat) : (s.forceWord off).pending = s.pending := rfl
@[simp] theorem State.forceWord_phase (off : Nat) : (s.forceWord off).phase = s.phase := rfl
@[simp] theorem State.forceWord_formatLatch (off : Nat) : (s.forceWord off).formatLatch = s.formatLatch := rfl
@[simp] theorem State.forceWord_mem (off : Nat) : (s.forceWord off).mem = s.mem := rfl
@[simp] theorem State.forceWord_drc (off : Nat) : (s.forceWord off).drc = s.drc := rfl
@[simp] theorem State.forceWord_pmp (off : Nat) : (s.forceWord off).pmp = s.pmp := rfl
@[simp] theorem State.forceWord_links (off : Nat) : (s.forceWord off).links = s.links := rfl
@[simp] theorem State.forceWord_ssq (off : Nat) : (s.forceWord off).ssq = s.ssq := rfl
@[simp] theorem State.forceWord_inv (off : Nat) : (s.forceWord off).inv = s.inv := rfl
@[simp] theorem State.forceWord_psm (off : Nat) : (s.forceWord off).psm = s.psm := rfl
@[simp] theorem State.forceWord_pal (off : Nat) : (s.forceWord off).pal = s.pal := rfl
@[simp] theorem State.forceWord_clc (off : Nat) : (s.forceWord off).clc = s.clc := rfl
@[simp] theorem State.forceWord_ulc (off : Nat) : (s.forceWord off).ulc = s.ulc := rfl
@[simp] theorem State.forceWord_meu (off : Nat) : (s.forceWord off).meu = s.meu := rfl
@[simp] theorem State.forceWord_pins (off : Nat) : (s.forceWord off).pins = s.pins := rfl
@[simp] theorem State.forceWord_outs (off : Nat) : (s.forceWord off).outs = s.outs := rfl
@[simp] theorem State.forceWord_agenda (off : Nat) : (s.forceWord off).agenda = s.agenda := rfl
@[simp] theorem State.forceWord_held (off : Nat) : (s.forceWord off).held = s.held := rfl
@[simp] theorem State.forceWord_later (off : Nat) : (s.forceWord off).later = s.later := rfl
@[simp] theorem State.forceWord_freeDraws (off : Nat) : (s.forceWord off).freeDraws = s.freeDraws := rfl

/-! ### send -/

@[simp] theorem State.send_pending (l : List LineSymbol) : (s.send l).pending = s.pending := rfl
@[simp] theorem State.send_phase (l : List LineSymbol) : (s.send l).phase = s.phase := rfl
@[simp] theorem State.send_formatLatch (l : List LineSymbol) : (s.send l).formatLatch = s.formatLatch := rfl
@[simp] theorem State.send_mem (l : List LineSymbol) : (s.send l).mem = s.mem := rfl
@[simp] theorem State.send_drc (l : List LineSymbol) : (s.send l).drc = s.drc := rfl
@[simp] theorem State.send_wra (l : List LineSymbol) : (s.send l).wra = s.wra := rfl
@[simp] theorem State.send_pmp (l : List LineSymbol) : (s.send l).pmp = s.pmp := rfl
@[simp] theorem State.send_links (l : List LineSymbol) : (s.send l).links = s.links := rfl
@[simp] theorem State.send_ssq (l : List LineSymbol) : (s.send l).ssq = s.ssq := rfl
@[simp] theorem State.send_psm (l : List LineSymbol) : (s.send l).psm = s.psm := rfl
@[simp] theorem State.send_pal (l : List LineSymbol) : (s.send l).pal = s.pal := rfl
@[simp] theorem State.send_clc (l : List LineSymbol) : (s.send l).clc = s.clc := rfl
@[simp] theorem State.send_ulc (l : List LineSymbol) : (s.send l).ulc = s.ulc := rfl
@[simp] theorem State.send_meu (l : List LineSymbol) : (s.send l).meu = s.meu := rfl
@[simp] theorem State.send_pins (l : List LineSymbol) : (s.send l).pins = s.pins := rfl
@[simp] theorem State.send_outs (l : List LineSymbol) : (s.send l).outs = s.outs := rfl
@[simp] theorem State.send_agenda (l : List LineSymbol) : (s.send l).agenda = s.agenda := rfl
@[simp] theorem State.send_held (l : List LineSymbol) : (s.send l).held = s.held := rfl
@[simp] theorem State.send_later (l : List LineSymbol) : (s.send l).later = s.later := rfl
@[simp] theorem State.send_freeDraws (l : List LineSymbol) : (s.send l).freeDraws = s.freeDraws := rfl

/-! ### requestRead -/

@[simp] theorem State.requestRead_pending (r : ReadRequest) : (s.requestRead r).pending = s.pending := rfl
@[simp] theorem State.requestRead_phase (r : ReadRequest) : (s.requestRead r).phase = s.phase := rfl
@[simp] theorem State.requestRead_formatLatch (r : ReadRequest) : (s.requestRead r).formatLatch = s.formatLatch := rfl
@[simp] theorem State.requestRead_mem (r : ReadRequest) : (s.requestRead r).mem = s.mem := rfl
@[simp] theorem State.requestRead_drc (r : ReadRequest) : (s.requestRead r).drc = s.drc := rfl
@[simp] theorem State.requestRead_pmp (r : ReadRequest) : (s.requestRead r).pmp = s.pmp := rfl
@[simp] theorem State.requestRead_links (r : ReadRequest) : (s.requestRead r).links = s.links := rfl
@[simp] theorem State.requestRead_ssq (r : ReadRequest) : (s.requestRead r).ssq = s.ssq := rfl
@[simp] theorem State.requestRead_inv (r : ReadRequest) : (s.requestRead r).inv = s.inv := rfl
@[simp] theorem State.requestRead_psm (r : ReadRequest) : (s.requestRead r).psm = s.psm := rfl
@[simp] theorem State.requestRead_pal (r : ReadRequest) : (s.requestRead r).pal = s.pal := rfl
@[simp] theorem State.requestRead_clc (r : ReadRequest) : (s.requestRead r).clc = s.clc := rfl
@[simp] theorem State.requestRead_ulc (r : ReadRequest) : (s.requestRead r).ulc = s.ulc := rfl
@[simp] theorem State.requestRead_meu (r : ReadRequest) : (s.requestRead r).meu = s.meu := rfl
@[simp] theorem State.requestRead_pins (r : ReadRequest) : (s.requestRead r).pins = s.pins := rfl
@[simp] theorem State.requestRead_outs (r : ReadRequest) : (s.requestRead r).outs = s.outs := rfl
@[simp] theorem State.requestRead_agenda (r : ReadRequest) : (s.requestRead r).agenda = s.agenda := rfl
@[simp] theorem State.requestRead_held (r : ReadRequest) : (s.requestRead r).held = s.held := rfl
@[simp] theorem State.requestRead_later (r : ReadRequest) : (s.requestRead r).later = s.later := rfl
@[simp] theorem State.requestRead_freeDraws (r : ReadRequest) : (s.requestRead r).freeDraws = s.freeDraws := rfl

/-! ### push -/

@[simp] theorem State.push_pending (m : Msg) : (s.push m).pending = s.pending := rfl
@[simp] theorem State.push_phase (m : Msg) : (s.push m).phase = s.phase := rfl
@[simp] theorem State.push_formatLatch (m : Msg) : (s.push m).formatLatch = s.formatLatch := rfl
@[simp] theorem State.push_mem (m : Msg) : (s.push m).mem = s.mem := rfl
@[simp] theorem State.push_drc (m : Msg) : (s.push m).drc = s.drc := rfl
@[simp] theorem State.push_wra (m : Msg) : (s.push m).wra = s.wra := rfl
@[simp] theorem State.push_pmp (m : Msg) : (s.push m).pmp = s.pmp := rfl
@[simp] theorem State.push_links (m : Msg) : (s.push m).links = s.links := rfl
@[simp] theorem State.push_ssq (m : Msg) : (s.push m).ssq = s.ssq := rfl
@[simp] theorem State.push_inv (m : Msg) : (s.push m).inv = s.inv := rfl
@[simp] theorem State.push_psm (m : Msg) : (s.push m).psm = s.psm := rfl
@[simp] theorem State.push_pal (m : Msg) : (s.push m).pal = s.pal := rfl
@[simp] theorem State.push_clc (m : Msg) : (s.push m).clc = s.clc := rfl
@[simp] theorem State.push_ulc (m : Msg) : (s.push m).ulc = s.ulc := rfl
@[simp] theorem State.push_meu (m : Msg) : (s.push m).meu = s.meu := rfl
@[simp] theorem State.push_pins (m : Msg) : (s.push m).pins = s.pins := rfl
@[simp] theorem State.push_outs (m : Msg) : (s.push m).outs = s.outs := rfl
@[simp] theorem State.push_held (m : Msg) : (s.push m).held = s.held := rfl
@[simp] theorem State.push_later (m : Msg) : (s.push m).later = s.later := rfl
@[simp] theorem State.push_freeDraws (m : Msg) : (s.push m).freeDraws = s.freeDraws := rfl

/-! ### storeWord -/

@[simp] theorem State.storeWord_pending (a : Nat) (w : Word) : (s.storeWord a w).pending = s.pending := rfl
@[simp] theorem State.storeWord_phase (a : Nat) (w : Word) : (s.storeWord a w).phase = s.phase := rfl
@[simp] theorem State.storeWord_formatLatch (a : Nat) (w : Word) : (s.storeWord a w).formatLatch = s.formatLatch := rfl
@[simp] theorem State.storeWord_drc (a : Nat) (w : Word) : (s.storeWord a w).drc = s.drc := rfl
@[simp] theorem State.storeWord_wra (a : Nat) (w : Word) : (s.storeWord a w).wra = s.wra := rfl
@[simp] theorem State.storeWord_pmp (a : Nat) (w : Word) : (s.storeWord a w).pmp = s.pmp := rfl
@[simp] theorem State.storeWord_links (a : Nat) (w : Word) : (s.storeWord a w).links = s.links := rfl
@[simp] theorem State.storeWord_ssq (a : Nat) (w : Word) : (s.storeWord a w).ssq = s.ssq := rfl
@[simp] theorem State.storeWord_inv (a : Nat) (w : Word) : (s.storeWord a w).inv = s.inv := rfl
@[simp] theorem State.storeWord_psm (a : Nat) (w : Word) : (s.storeWord a w).psm = s.psm := rfl
@[simp] theorem State.storeWord_pal (a : Nat) (w : Word) : (s.storeWord a w).pal = s.pal := rfl
@[simp] theorem State.storeWord_clc (a : Nat) (w : Word) : (s.storeWord a w).clc = s.clc := rfl
@[simp] theorem State.storeWord_ulc (a : Nat) (w : Word) : (s.storeWord a w).ulc = s.ulc := rfl
@[simp] theorem State.storeWord_meu (a : Nat) (w : Word) : (s.storeWord a w).meu = s.meu := rfl
@[simp] theorem State.storeWord_pins (a : Nat) (w : Word) : (s.storeWord a w).pins = s.pins := rfl
@[simp] theorem State.storeWord_outs (a : Nat) (w : Word) : (s.storeWord a w).outs = s.outs := rfl
@[simp] theorem State.storeWord_agenda (a : Nat) (w : Word) : (s.storeWord a w).agenda = s.agenda := rfl
@[simp] theorem State.storeWord_held (a : Nat) (w : Word) : (s.storeWord a w).held = s.held := rfl
@[simp] theorem State.storeWord_later (a : Nat) (w : Word) : (s.storeWord a w).later = s.later := rfl
@[simp] theorem State.storeWord_freeDraws (a : Nat) (w : Word) : (s.storeWord a w).freeDraws = s.freeDraws := rfl

/-! ### storeImage -/

@[simp] theorem State.storeImage_pending (off : Nat) (w : Word) : (s.storeImage off w).pending = s.pending := rfl
@[simp] theorem State.storeImage_phase (off : Nat) (w : Word) : (s.storeImage off w).phase = s.phase := rfl
@[simp] theorem State.storeImage_formatLatch (off : Nat) (w : Word) : (s.storeImage off w).formatLatch = s.formatLatch := rfl
@[simp] theorem State.storeImage_drc (off : Nat) (w : Word) : (s.storeImage off w).drc = s.drc := rfl
@[simp] theorem State.storeImage_wra (off : Nat) (w : Word) : (s.storeImage off w).wra = s.wra := rfl
@[simp] theorem State.storeImage_pmp (off : Nat) (w : Word) : (s.storeImage off w).pmp = s.pmp := rfl
@[simp] theorem State.storeImage_links (off : Nat) (w : Word) : (s.storeImage off w).links = s.links := rfl
@[simp] theorem State.storeImage_ssq (off : Nat) (w : Word) : (s.storeImage off w).ssq = s.ssq := rfl
@[simp] theorem State.storeImage_inv (off : Nat) (w : Word) : (s.storeImage off w).inv = s.inv := rfl
@[simp] theorem State.storeImage_psm (off : Nat) (w : Word) : (s.storeImage off w).psm = s.psm := rfl
@[simp] theorem State.storeImage_pal (off : Nat) (w : Word) : (s.storeImage off w).pal = s.pal := rfl
@[simp] theorem State.storeImage_clc (off : Nat) (w : Word) : (s.storeImage off w).clc = s.clc := rfl
@[simp] theorem State.storeImage_ulc (off : Nat) (w : Word) : (s.storeImage off w).ulc = s.ulc := rfl
@[simp] theorem State.storeImage_meu (off : Nat) (w : Word) : (s.storeImage off w).meu = s.meu := rfl
@[simp] theorem State.storeImage_pins (off : Nat) (w : Word) : (s.storeImage off w).pins = s.pins := rfl
@[simp] theorem State.storeImage_outs (off : Nat) (w : Word) : (s.storeImage off w).outs = s.outs := rfl
@[simp] theorem State.storeImage_agenda (off : Nat) (w : Word) : (s.storeImage off w).agenda = s.agenda := rfl
@[simp] theorem State.storeImage_held (off : Nat) (w : Word) : (s.storeImage off w).held = s.held := rfl
@[simp] theorem State.storeImage_later (off : Nat) (w : Word) : (s.storeImage off w).later = s.later := rfl
@[simp] theorem State.storeImage_freeDraws (off : Nat) (w : Word) : (s.storeImage off w).freeDraws = s.freeDraws := rfl


/-! ### The field an update changes -/

@[simp] theorem State.updMeu_meu (f : Meu → Meu) : (s.updMeu f).meu = f s.meu := rfl
@[simp] theorem State.updPal_pal (f : Pal → Pal) : (s.updPal f).pal = f s.pal := rfl
@[simp] theorem State.updPins_pins (f : Pins → Pins) : (s.updPins f).pins = f s.pins := rfl
@[simp] theorem State.updPmp_pmp (f : Pmp → Pmp) : (s.updPmp f).pmp = f s.pmp := rfl
@[simp] theorem State.updSsq_ssq (f : Ssq → Ssq) : (s.updSsq f).ssq = f s.ssq := rfl
@[simp] theorem State.updPsm_psm (f : Psm → Psm) : (s.updPsm f).psm = f s.psm := rfl
@[simp] theorem State.updUlc_ulc (f : Ulc → Ulc) : (s.updUlc f).ulc = f s.ulc := rfl
@[simp] theorem State.push_agenda (m : Msg) : (s.push m).agenda = s.agenda ++ [m] := rfl
@[simp] theorem State.storeWord_mem (a : Nat) (w : Word) : (s.storeWord a w).mem = memWrite s.mem a w := rfl
@[simp] theorem State.storeImage_mem (off : Nat) (w : Word) :
    (s.storeImage off w).mem = memWrite s.mem (Config.imageBase + off) w := rfl

/-- One element after `updLink`. -/
theorem State.updLink_get (i j : Slot) (f : Link → Link) :
    (s.updLink i f).links[j] = if i = j then f s.links[i] else s.links[j] := by
  simp [State.updLink, Vector.getElem_set, Fin.ext_iff]

@[simp] theorem State.updLink_self (i : Slot) (f : Link → Link) : (s.updLink i f).links[i] = f s.links[i] := by
  simp [State.updLink]

theorem State.updLink_other (i j : Slot) (f : Link → Link) (h : i ≠ j) : (s.updLink i f).links[j] = s.links[j] := by
  rw [State.updLink_get, if_neg h]

/-- One element after `updSlot`. -/
theorem State.updSlot_get (i j : Slot) (f : SlotSeq → SlotSeq) :
    (s.updSlot i f).ssq.slots[j] = if i = j then f s.ssq.slots[i] else s.ssq.slots[j] := by
  simp [State.updSlot, Vector.getElem_set, Fin.ext_iff]

@[simp] theorem State.updSlot_self (i : Slot) (f : SlotSeq → SlotSeq) : (s.updSlot i f).ssq.slots[i] = f s.ssq.slots[i] := by
  simp [State.updSlot]

theorem State.updSlot_other (i j : Slot) (f : SlotSeq → SlotSeq) (h : i ≠ j) : (s.updSlot i f).ssq.slots[j] = s.ssq.slots[j] := by
  rw [State.updSlot_get, if_neg h]

/-- One element after `updEntry`. -/
theorem State.updEntry_get (i j : EntryNo) (f : InvEntry → InvEntry) :
    (s.updEntry i f).inv.entries[j] = if i = j then f s.inv.entries[i] else s.inv.entries[j] := by
  simp [State.updEntry, Vector.getElem_set, Fin.ext_iff]

@[simp] theorem State.updEntry_self (i : EntryNo) (f : InvEntry → InvEntry) : (s.updEntry i f).inv.entries[i] = f s.inv.entries[i] := by
  simp [State.updEntry]

theorem State.updEntry_other (i j : EntryNo) (f : InvEntry → InvEntry) (h : i ≠ j) : (s.updEntry i f).inv.entries[j] = s.inv.entries[j] := by
  rw [State.updEntry_get, if_neg h]

/-- One element after `updBay`. -/
theorem State.updBay_get (i j : ModuleBay) (f : ModuleSense → ModuleSense) :
    (s.updBay i f).inv.bays[j] = if i = j then f s.inv.bays[i] else s.inv.bays[j] := by
  simp [State.updBay, Vector.getElem_set, Fin.ext_iff]

@[simp] theorem State.updBay_self (i : ModuleBay) (f : ModuleSense → ModuleSense) : (s.updBay i f).inv.bays[i] = f s.inv.bays[i] := by
  simp [State.updBay]

theorem State.updBay_other (i j : ModuleBay) (f : ModuleSense → ModuleSense) (h : i ≠ j) : (s.updBay i f).inv.bays[j] = s.inv.bays[j] := by
  rw [State.updBay_get, if_neg h]

/-- One element after `updPsu`. -/
theorem State.updPsu_get (i j : PsuBay) (f : Psu → Psu) :
    (s.updPsu i f).psm.bays[j] = if i = j then f s.psm.bays[i] else s.psm.bays[j] := by
  simp [State.updPsu, Vector.getElem_set, Fin.ext_iff]

@[simp] theorem State.updPsu_self (i : PsuBay) (f : Psu → Psu) : (s.updPsu i f).psm.bays[i] = f s.psm.bays[i] := by
  simp [State.updPsu]

theorem State.updPsu_other (i j : PsuBay) (f : Psu → Psu) (h : i ≠ j) : (s.updPsu i f).psm.bays[j] = s.psm.bays[j] := by
  rw [State.updPsu_get, if_neg h]

/-- One element after `updAlloc`. -/
theorem State.updAlloc_get (i j : Slot) (f : Alloc → Alloc) :
    (s.updAlloc i f).pal.slots[j] = if i = j then f s.pal.slots[i] else s.pal.slots[j] := by
  simp [State.updAlloc, Vector.getElem_set, Fin.ext_iff]

@[simp] theorem State.updAlloc_self (i : Slot) (f : Alloc → Alloc) : (s.updAlloc i f).pal.slots[i] = f s.pal.slots[i] := by
  simp [State.updAlloc]

theorem State.updAlloc_other (i j : Slot) (f : Alloc → Alloc) (h : i ≠ j) : (s.updAlloc i f).pal.slots[j] = s.pal.slots[j] := by
  rw [State.updAlloc_get, if_neg h]

/-- One element after `updFan`. -/
theorem State.updFan_get (i j : FanPos) (f : Fan → Fan) :
    (s.updFan i f).clc.fans[j] = if i = j then f s.clc.fans[i] else s.clc.fans[j] := by
  simp [State.updFan, Vector.getElem_set, Fin.ext_iff]

@[simp] theorem State.updFan_self (i : FanPos) (f : Fan → Fan) : (s.updFan i f).clc.fans[i] = f s.clc.fans[i] := by
  simp [State.updFan]

theorem State.updFan_other (i j : FanPos) (f : Fan → Fan) (h : i ≠ j) : (s.updFan i f).clc.fans[j] = s.clc.fans[j] := by
  rw [State.updFan_get, if_neg h]

/-- One element after `updThermal`. -/
theorem State.updThermal_get (i j : Slot) (f : Thermal → Thermal) :
    (s.updThermal i f).clc.slots[j] = if i = j then f s.clc.slots[i] else s.clc.slots[j] := by
  simp [State.updThermal, Vector.getElem_set, Fin.ext_iff]

@[simp] theorem State.updThermal_self (i : Slot) (f : Thermal → Thermal) : (s.updThermal i f).clc.slots[i] = f s.clc.slots[i] := by
  simp [State.updThermal]

theorem State.updThermal_other (i j : Slot) (f : Thermal → Thermal) (h : i ≠ j) : (s.updThermal i f).clc.slots[j] = s.clc.slots[j] := by
  rw [State.updThermal_get, if_neg h]

/-- One element after `updZone`. -/
theorem State.updZone_get (i j : Zone) (f : ZoneState → ZoneState) :
    (s.updZone i f).clc.zones[j] = if i = j then f s.clc.zones[i] else s.clc.zones[j] := by
  simp [State.updZone, Vector.getElem_set, Fin.ext_iff]

@[simp] theorem State.updZone_self (i : Zone) (f : ZoneState → ZoneState) : (s.updZone i f).clc.zones[i] = f s.clc.zones[i] := by
  simp [State.updZone]

theorem State.updZone_other (i j : Zone) (f : ZoneState → ZoneState) (h : i ≠ j) : (s.updZone i f).clc.zones[j] = s.clc.zones[j] := by
  rw [State.updZone_get, if_neg h]

/-- One element after `updUplink`. -/
theorem State.updUplink_get (i j : UplinkBay) (f : Uplink → Uplink) :
    (s.updUplink i f).ulc.bays[j] = if i = j then f s.ulc.bays[i] else s.ulc.bays[j] := by
  simp [State.updUplink, Vector.getElem_set, Fin.ext_iff]

@[simp] theorem State.updUplink_self (i : UplinkBay) (f : Uplink → Uplink) : (s.updUplink i f).ulc.bays[i] = f s.ulc.bays[i] := by
  simp [State.updUplink]

theorem State.updUplink_other (i j : UplinkBay) (f : Uplink → Uplink) (h : i ≠ j) : (s.updUplink i f).ulc.bays[j] = s.ulc.bays[j] := by
  rw [State.updUplink_get, if_neg h]

/-- One element after `updPlacement`. -/
theorem State.updPlacement_get (i j : Slot) (f : Placement → Placement) :
    (s.updPlacement i f).ulc.slots[j] = if i = j then f s.ulc.slots[i] else s.ulc.slots[j] := by
  simp [State.updPlacement, Vector.getElem_set, Fin.ext_iff]

@[simp] theorem State.updPlacement_self (i : Slot) (f : Placement → Placement) : (s.updPlacement i f).ulc.slots[i] = f s.ulc.slots[i] := by
  simp [State.updPlacement]

theorem State.updPlacement_other (i j : Slot) (f : Placement → Placement) (h : i ≠ j) : (s.updPlacement i f).ulc.slots[j] = s.ulc.slots[j] := by
  rw [State.updPlacement_get, if_neg h]

end Sys2Proof.Machine
end

