-- ==== Sys2Proof/Tests/Slice0.lean ====
section
/-! SUPPORT. The model's own tests. First the checks of WellFormed; then, for every statement of
Certificates/Slice0/Obligations.lean that has hypotheses, concrete states and operands that meet them (a witness for each clause,
at a boundary of its range where it has one); then small steps whose expected values are worked out from the rules of spec/. -/

namespace Sys2Proof.Tests

set_option Elab.async false

open Sys2Proof Sys2Proof.Machine

/-! ## Well-formed commands -/

theorem test_wellFormed_command_byte_refused : wellFormed (.unknownCommand 3 0xA4#8) = false := by decide

theorem test_wellFormed_command_byte : wellFormed (.unknownCommand 3 0xA5#8) = true := by decide

theorem test_wellFormed_record_refused :
    wellFormed (.readerRecordRead (List.replicate 6 0#32)) = false ∧
      wellFormed (.readerRecordRead (List.replicate 63 0#32)) = false := by decide

theorem test_wellFormed_record :
    wellFormed (.readerRecordRead (List.replicate 7 0#32)) = true ∧
      wellFormed (.readerRecordRead (List.replicate 62 0#32)) = true := by decide

theorem test_wellFormed_pulses_refused : wellFormed (.resetRelease 10) = false := by decide

theorem test_wellFormed_pulses : wellFormed (.resetRelease 9) = true := by decide

theorem test_no_word_spells_a_command : decodeTableWord 32 0xA1 = none := by decide

/-! ## States for the witnesses -/

/-- Ports open, the DRC running, nothing else since power-on. -/
def op : State := { State.reset with phase := .operating, drc := { Drc.reset with started := true, row := 8 } }

/-- A phase with the DRC running. -/
def inPhase (p : Phase) : State := { op with phase := p }

/-- The state after a step. -/
def stepped (s : State) : State :=
  match step s with
  | .next t => t
  | _ => s

/-- A slot in a state, its other fields changed by `f`. -/
def slotIn (i : Slot) (st : SlotState) (f : SlotSeq → SlotSeq := id) : State :=
  op.updSlot i fun q => f { q with state := st }

/-- A slot with a sequence timer of one tick. -/
def waiting (i : Slot) (st : SlotState) (w : SeqWait) (f : SlotSeq → SlotSeq := id) : State :=
  slotIn i st fun q => f { q with seq := some { wait := w, left := 1 } }

/-- A supply in a state. -/
def psuIn (b : PsuBay) (st : PsuState) (f : Psu → Psu := id) : State := op.updPsu b fun p => f { p with state := st }

/-- An uplink bay in a state. -/
def uplinkIn (b : UplinkBay) (st : UplinkState) (f : Uplink → Uplink := id) : State :=
  op.updUplink b fun u => f { u with state := st, figures := ⟨8, 4, 60⟩ }

/-- A fan in a state. -/
def fanIn (p : FanPos) (st : FanState) (f : Fan → Fan := id) : State := op.updFan p fun x => f { x with state := st }

/-- A blade entry in a state. -/
def bladeIn (i : Slot) (st : EntryState) (s : State := op) : State :=
  s.updEntry (slotEntry i) fun e => { e with state := st }

/-- A reader at a bay. -/
def readingBay (b : ModuleBay) (w : Option Word) (attempts : Nat := 1) : State :=
  let s := { op with inv := { op.inv with reading := some { bay := b, word0 := w } } }
  s.updEntry (bayEntry b) fun e => { e with state := .reading, attempts := attempts }

/-- A frame of a link at the end of a whole header. -/
def frameOf (c : FrameCommand) : Frame :=
  { disregarded := false, command := c, header := 2, offset := 0, part := [], complete := false, errored := false
    overrun := false, unit := [], answer := none }

/-- A link inside a frame. -/
def linkIn (i : Slot) (f : Frame) : State := op.updLink i fun l => { l with lec := 4, frame := some f }

/-! ## Witnesses: the step and the laws -/

theorem witness_StepRunsTheFrontCommand : State.reset.pending = [] := rfl

/-- A link at the top of its count with a full buffer. -/
def fullLink : State := op.updLink 15 fun l =>
  { l with lec := 255, state := .isolated, buffer := List.replicate 4 { off := 0x5C0, data := 7#32, mask := none } }

/-- A command waits in front, and the state after it is a next state. -/
def queued (c : Instr) (s : State) : State := { s with pending := [c] }

theorem witness_StepKeepsMemoryForm :
    memWf (queued (.plainWrite (.processor (.write 9#19 5#32))) op).mem = true ∧
      step (queued (.plainWrite (.processor (.write 9#19 5#32))) op) =
        .next (stepped (queued (.plainWrite (.processor (.write 9#19 5#32))) op)) := ⟨rfl, rfl⟩

theorem witness_StepKeepsLinkAndBufferLaws :
    LinkLaw (queued (.store 15 0#16 1#32) fullLink) ∧ BufferLaw (queued (.store 15 0#16 1#32) fullLink) ∧
      step (queued (.store 15 0#16 1#32) fullLink) = .next (stepped (queued (.store 15 0#16 1#32) fullLink)) := by
  refine ⟨?_, ?_, rfl⟩
  · unfold LinkLaw; decide +kernel
  · unfold BufferLaw; decide +kernel

/-- A full write-back queue, an update waiting, the debt at its most and the last row next. -/
def fullQueue : State :=
  { op with
    drc := { op.drc with debt := 8, row := 2047 }
    wra := { op.wra with
      queue := (List.range 64).map fun k => { off := k, kind := .whole 1#32 }
      waiting := [{ off := 64, kind := .whole 2#32 }] } }

theorem witness_StepKeepsRefreshAndQueueLaws :
    RefreshLaw (queued .refreshDue fullQueue) ∧ QueueLaw (queued .refreshDue fullQueue) ∧
      step (queued .refreshDue fullQueue) = .next (stepped (queued .refreshDue fullQueue)) := by
  refine ⟨?_, ?_, rfl⟩
  · unfold RefreshLaw; decide +kernel
  · unfold QueueLaw State.waitsWell; decide +kernel

theorem witness_StepKeepsLinesLaw :
    LinesLaw (queued .blinkCounterWrap { op with outs := outsOf op }) ∧ (queued .blinkCounterWrap op).phase = .operating ∧
      step (queued .blinkCounterWrap { op with outs := outsOf op }) =
        .next (stepped (queued .blinkCounterWrap { op with outs := outsOf op })) := by
  refine ⟨?_, rfl, rfl⟩
  unfold LinesLaw SlotLines ShowsOn; decide +kernel

/-- The ports open with every published word in the DRAM at its block's value, nothing on its way. -/
def inStep : State := (pubs op).foldl (fun s p => s.storeImage p.off p.value) op

theorem inStep_agrees : (pubs inStep).all (fun p => inStep.comingWord p.off == p.value) = true := by decide +kernel

theorem pubs_queued (c : Instr) (s : State) : pubs (queued c s) = pubs s := rfl

theorem comingWord_queued (c : Instr) (s : State) (off : Nat) : (queued c s).comingWord off = s.comingWord off := rfl

theorem witness_StepKeepsPublicationLaw :
    memWf (queued .clockSecond inStep).mem = true ∧ BufferLaw (queued .clockSecond inStep) ∧
      QueueLaw (queued .clockSecond inStep) ∧ PublicationLaw (queued .clockSecond inStep) ∧
      step (queued .clockSecond inStep) = .next (stepped (queued .clockSecond inStep)) ∧
      (queued .clockSecond inStep).phase = .operating ∧
      Pub.count 0x103 0 ∈ pubs (queued .clockSecond inStep) ∧ holdsWord (queued .clockSecond inStep).wra.queue 0x103 = false ∧
      holdsWord (queued .clockSecond inStep).waitingUpdates 0x103 = false := by
  refine ⟨by decide +kernel, ?_, ?_, ?_, rfl, by decide +kernel, by decide +kernel, by decide +kernel, by decide +kernel⟩
  · unfold BufferLaw; decide +kernel
  · unfold QueueLaw State.waitsWell; decide +kernel
  · intro p hp
    refine ⟨fun u hu => ?_, fun _ => ?_⟩
    · rw [show (queued .clockSecond inStep).wra.queue ++ (queued .clockSecond inStep).waitingUpdates = [] from by decide +kernel] at hu
      cases hu
    · rw [pubs_queued] at hp
      rw [comingWord_queued]
      exact eq_of_beq (List.all_eq_true.mp inStep_agrees p hp)

/-- The days' first bit waits, at its block's value, for room in the queue. -/
def daysWait : State := { inStep with wra := { inStep.wra with waiting := [{ off := 0x103, kind := .fields 1#32 0#32 }] } }

theorem daysWait_agrees : (pubs daysWait).all (fun p => daysWait.comingWord p.off == p.value &&
    (p.off != 0x103 || 1#32 &&& ~~~p.mask == 0#32)) = true := by decide +kernel

theorem witness_StepKeepsPublicationLaw_field :
    PublicationLaw daysWait ∧ daysWait.phase = .operating ∧ Pub.count 0x103 0 ∈ pubs daysWait ∧
      holdsWord daysWait.wra.queue 0x103 = false ∧ 15 < 32 ∧
      ∀ u ∈ daysWait.waitingUpdates, u.off = 0x103 → u.kind.mask.getLsbD 15 = false := by
  refine ⟨fun p hp => ?_, by decide +kernel, by decide +kernel, by decide +kernel, by decide, by decide +kernel⟩
  obtain ⟨hv, hm⟩ := (Bool.and_eq_true _ _ ▸ List.all_eq_true.mp daysWait_agrees p hp)
  refine ⟨fun u hu ho => ?_, fun _ => eq_of_beq hv⟩
  rw [show daysWait.wra.queue ++ daysWait.waitingUpdates = [{ off := 0x103, kind := .fields 1#32 0#32 }] from by decide +kernel,
    List.mem_singleton] at hu
  subst hu
  simpa [← ho, Pub.isUpdate] using hm

/-- The lines as driven, a full queue, a day's update waiting that does not bind, and one that does. -/
def boundState : State :=
  { op with
    outs := outsOf op
    wra := { op.wra with
      queue := (List.range 64).map fun k => { off := k, kind := .whole 1#32 }
      waiting := [{ off := 0x600, kind := .whole 0#32 }, { off := 0x107, kind := .whole 5#32 }] } }

theorem witness_StepKeepsPublicationLaw_bound :
    boundState.bound = 1 ∧ (queued .refreshDue boundState).phase = .operating ∧
      (stepped (queued .refreshDue boundState)).phase = .operating ∧ LinesLaw (queued .refreshDue boundState) ∧
      QueueLaw (queued .refreshDue boundState) ∧
      step (queued .refreshDue boundState) = .next (stepped (queued .refreshDue boundState)) := by
  refine ⟨by decide +kernel, by decide +kernel, by decide +kernel, ?_, ?_, rfl⟩
  · unfold LinesLaw SlotLines ShowsOn; decide +kernel
  · unfold QueueLaw State.waitsWell; decide +kernel

/-- A zone at full duty, and one whose applied duty stands at its target. -/
def fullDuty : State := (op.updZone 0 fun z => { z with target := 100, applied := 100 }).updZone 3 fun z =>
  { z with target := 0, applied := 0 }

theorem witness_StepKeepsDutyLaw :
    DutyLaw (queued .controlPeriod fullDuty) ∧
      step (queued .controlPeriod fullDuty) = .next (stepped (queued .controlPeriod fullDuty)) := by
  refine ⟨?_, rfl⟩
  unfold DutyLaw; decide +kernel

/-- Settings at the ends of their ranges, and two more waiting at the ends of theirs. -/
def extremeSettings : State :=
  { (op.updPsm fun p => { p with margin := 1000 }).updPal fun p =>
      { p with baseLoad := 500, defaultAllowance := 5, reduceTimeout := 255 } with
    held := [.psmSetting 0x05 1000#32, .ssqActivityCount 15 31] }

theorem witness_StepKeepsSettingsLaw :
    SettingsLaw (queued .writebackUpdateTaken extremeSettings) ∧
      step (queued .writebackUpdateTaken extremeSettings) = .next (stepped (queued .writebackUpdateTaken extremeSettings)) := by
  refine ⟨?_, rfl⟩
  unfold SettingsLaw; decide +kernel

theorem witness_LinesHoldUntilThePortsOpen :
    exec (.mainPgLost 3) (inPhase .resetHeld) = .next (after (.mainPgLost 3) (inPhase .resetHeld)) ∧
      (after (.mainPgLost 3) (inPhase .resetHeld)).phase ≠ .operating ∧ Instr.mainPgLost 3 ≠ .powerOnReset ∧
      (after .resetAssert op).phase ≠ .operating := ⟨rfl, by decide +kernel⟩

theorem witness_EventsAreDisregardedWhileThePortsAreClosed :
    State.reset.phase ≠ .operating ∧ (inPhase .identityReads).phase ≠ .operating ∧
      (inPhase .recovered).phase ≠ .identityReads := by decide

/-! ## Witnesses: resets and image preparation -/

/-- FORMAT with its marker alone left in the queue. -/
def markerLeft (pin : Bool) : State :=
  { inPhase (.formatting pin (formatWrites 1#32).length 1#32) with
    wra := { Wra.reset with queue := [{ off := 0, kind := .whole 0xA4620C1E#32 }] } }

theorem witness_StartupAndFormatPrepareTheImage :
    (∀ pin : Bool, memWf (markerLeft pin).mem = true ∧
      (markerLeft pin).phase = .formatting pin (formatWrites 1#32).length 1#32 ∧
      formatQueued (formatWrites 1#32).length 1#32 = true ∧ (markerLeft pin).drc.started = true ∧ (markerLeft pin).drc.debt < 8 ∧
      (markerLeft pin).wra.queue = [{ off := 0, kind := .whole 0xA4620C1E#32 }]) ∧
    Rested State.reset ∧ State.reset.phase = .startup ∧ State.reset.drc.started = false ∧ State.reset.wra = Wra.reset ∧
      (inPhase (.formatted false)).phase = .formatted false ∧ (inPhase (.formatted true)).phase = .formatted true ∧
      ((inPhase (.formatted false)).updPins fun p => { p with fanPres := p.fanPres.set 7 true }).pins.fanPres[7] = true := by
  unfold Rested; decide +kernel

theorem witness_StartupAndFormatPrepareTheImage_words :
    (0xE5 ≤ 0xE5 ∧ 0xE5 < 0xEF) ∧ 0x100 ≤ 0x100 ∧ 0x100 < 0xF00 ∧ assigned 0x100 = true ∧
      (∀ i : Slot, 0x100 ≠ 0x202 + i.val * 64 ∧ 0x100 ≠ 0x203 + i.val * 64) ∧ (∀ e : EntryNo, 0x100 ≠ 0xA00 + e.val * 32) ∧
      ∀ z : Zone, 0x100 ≠ 0x10E + z.val ∧ 0x100 ≠ 0x191 + z.val * 4 := by decide +kernel

/-- The header words requested, with word 0 as the marker and the format latch set. -/
def headerAsked (latch : Bool) : State :=
  { inPhase (.header none) with
    formatLatch := latch, mem := [(0x7C000, Config.marker)], wra := { Wra.reset with reads := [.header 0, .header 1] } }

/-- Word 0 answered. -/
def headerAnswered (m : Word) (latch : Bool) : State :=
  { headerAsked latch with phase := .header (some m), wra := { Wra.reset with reads := [.header 1] } }

theorem witness_ReleaseChoosesRecoverOrFormat :
    (inPhase .resetHeld).phase = .resetHeld ∧ Rested (inPhase .resetHeld) ∧ (inPhase .resetHeld).wra = Wra.reset ∧
      Rested (headerAsked true) ∧ (headerAsked true).drc.started = true ∧ (headerAsked true).drc.debt < 8 ∧
      (headerAsked true).wra.queue = [] ∧ (headerAsked true).wra.waiting = [] ∧ (headerAsked true).wra.readsWaiting = [] ∧
      (headerAsked true).phase = .header none ∧ (headerAsked true).wra.reads = [.header 0, .header 1] ∧
      Rested (headerAnswered Config.marker true) ∧
      (headerAnswered Config.marker true).phase = .header (some Config.marker) ∧
      (headerAnswered Config.marker true).wra.reads = [.header 1] ∧
      (headerAnswered Config.marker true).formatLatch = true ∧ Config.marker = 0xA4620C1E#32 ∧
      (headerAnswered 0#32 true).phase = .header (some 0#32) ∧ (headerAnswered Config.marker false).formatLatch = false := by
  unfold Rested; decide +kernel

/-- RECOVER with `k` words answered and the next requested. -/
def recoverAt (k off : Nat) : State :=
  { inPhase (.recovering k) with wra := { Wra.reset with reads := [.recover off] } }

theorem witness_RecoverReadsEveryWordInOrder :
    Rested (recoverAt 0 0) ∧ (recoverAt 0 0).phase = .recovering 0 ∧ (recoverAt 0 0).drc.started = true ∧
      (recoverAt 0 0).drc.debt < 8 ∧ (recoverAt 0 0).wra.queue = [] ∧ (recoverAt 0 0).wra.waiting = [] ∧
      (recoverAt 0 0).wra.reads = [.recover 0] ∧ (recoverAt 0 0).wra.readsWaiting = [] ∧ recoverOffsets[0]? = some 0 ∧
      recoverOffsets[0 + 1]? = some 1 ∧ recoverOffsets[5]? = some 5 ∧
      recoverOffsets[recoverOffsets.length - 1]? = some 0xEFF ∧ recoverOffsets[recoverOffsets.length - 1 + 1]? = none ∧
      (∀ off ∈ [0x02, 0x04, 0x05, 0x06, 0x07, 0x09, 0x0A, 0x0B, 0x0C, 0x0D, 0x0E, 0x0F, 0x10, 0x11, 0x13, 0x14, 0xE0, 0xE1, 0xE2, 0xE3,
        0xE4, 0x103, 0x104, 0x106, 0x10D, 0x1D0, 0x1D2, 0x1D3], off ∈ recoverOffsets) ∧
      (∀ i : Slot, ∀ k ∈ [0, 1, 2, 3, 4, 5], 0x40 + i.val * 8 + k ∈ recoverOffsets) ∧
      (∀ z : Zone, ∀ k : Fin 8, 0xC0 + z.val * 8 + k.val ∈ recoverOffsets) ∧
      (∀ i : Slot, ∀ k ∈ [0, 2, 3, 16, 23, 24], 0x200 + i.val * 64 + k ∈ recoverOffsets) ∧
      (∀ b : PsuBay, ∀ k ∈ [0, 2], 0x140 + b.val * 8 + k ∈ recoverOffsets) ∧
      ∀ e : EntryNo, 0xA00 + e.val * 32 + 20 ∈ recoverOffsets := by
  unfold Rested; decide +kernel

theorem witness_AdoptionTakesTheChassisOver :
    (inPhase .recovered).phase = .recovered ∧ (inPhase .identityReads).phase = .identityReads ∧
      identityReadsDone (inPhase .identityReads) = true ∧ (inPhase (.recovering 0)).phase ≠ .recovered ∧
      identityReadsDone (inPhase (.recovering 0)) = false ∧ PsuState.online ≠ .retired ∧ PsuState.online ≠ .faulted := by decide +kernel

/-! ## Witnesses: the memory path -/

/-- The queue short of its size by one, an update waiting and a read-back request waiting. -/
def updateWaits : State :=
  { op with
    wra := { op.wra with
      queue := (List.range 63).map fun k => { off := k, kind := .whole 1#32 }
      waiting := [{ off := 70, kind := .whole 2#32 }, { off := 70, kind := .flags 1#32 }, { off := 71, kind := .whole 4#32 }]
      reads := List.replicate 63 (.verify 0 1 0), readsWaiting := [.verify 1 1 0] } }

/-- The port holds a read of general store. -/
def portReads : State :=
  { op with pmp := { strobe := some (.read 0#19), holding := some (.read 0#19), current := true, ready := false, dataOut := none } }

/-- Links with an access: slot 1 a buffered word, slot 16 a read of its frame. -/
def linksWait : State := (op.updLink 0 fun l => { l with buffer := [{ off := 0x200, data := 1#32, mask := none }] }).updLink 15 fun l =>
  { l with reads := [{ off := 0x5D0, live := true }], frame := some (frameOf .peek) }

/-- An update of slot 5's record waits, of bay 2's supply record, and of its inventory entry; a request waits with them. -/
def heldUp : State :=
  let r := { op.inv with reading := some { bay := 1, word0 := none } }
  { op with
    inv := r, held := [.ssqRequest 4 100]
    wra := { op.wra with
      queue := (List.range 64).map fun k => { off := k, kind := .whole 1#32 }
      waiting := [{ off := 0x311, kind := .whole 2#32 }, { off := 0x149, kind := .whole 1#32 }, { off := 0xC20, kind := .whole 1#32 }] } }

theorem witness_ArbiterServesInOrder_links :
    (memWf linksWait.mem = true ∧ linksWait.phase = .operating ∧ linksWait.drc.started = true ∧ linksWait.drc.debt < 8 ∧
        linksWait.wra.queue = [] ∧ linksWait.wra.reads = [] ∧ linksWait.pmp.holding = none ∧
        (0 : Slot) = slotIx (linksWait.drc.lastLink.val + 1 + 0) ∧ linksWait.links[0].waiting = true ∧
        linksWait.links[0].buffer = [{ off := 0x200, data := 1#32, mask := none }]) ∧
      (let s := linksWait.updLink 0 fun l => { l with buffer := [] };
        (15 : Slot) = slotIx (s.drc.lastLink.val + 1 + 15) ∧ s.links[15].waiting = true ∧
          (∀ k : Fin 15, s.links[slotIx (s.drc.lastLink.val + 1 + k.val)].waiting = false) ∧ s.links[15].buffer = [] ∧
          s.links[15].reads = [{ off := 0x5D0, live := true }] ∧ s.links[15].frame = some (frameOf .peek)) := by decide +kernel

/-- A queue with no entry left for a word that has none. -/
def packed (s : State) : State :=
  { s with wra := { s.wra with queue := (List.range 64).map fun k => { off := k, kind := .whole 1#32 } } }

/-- R38, with and without room: the clock's second fits an empty queue, waits for a full one, and is put off within an event in parts. -/
theorem witness_ArbiterServesInOrder_room :
    Fits op (effect .clockSecond op) ∧ ¬Fits (packed op) (effect .clockSecond (packed op)) ∧
      Held.meuSecond.scope op.inv = some (.word 0x104) ∧ op.acts (.word 0x104) ∧
      ({ op with later := some [] } : State).later = some [] ∧
      (packed op).later = none ∧ ({ op with held := [.meuSecond] } : State).holds (.word 0x104) = true ∧
      (op.wra.waiting = [] ∧ fullQueue.phase = .operating ∧ 64 ≤ fullQueue.wra.queue.length) := by decide +kernel

/-- R38: the second that the queue has no room for has not happened, and is offered again once an entry is freed and the queue takes it. -/
theorem test_second_waits_for_room :
    (after .clockSecond (packed op)).held = [.meuSecond] ∧ (after .clockSecond (packed op)).meu.clock = op.meu.clock ∧
      (let s := { after .clockSecond (packed op) with wra := op.wra };
        (after .writebackUpdateTaken s).held = [] ∧ (after .writebackUpdateTaken s).meu.clock.seconds = 1) := by decide +kernel

theorem witness_ArbiterServesInOrder_held :
    (∀ n : Fin 2, let s : State := { op with drc := { op.drc with debt := 1 + 6 * n.val } };
        s.drc.started = true ∧ 0 < s.drc.debt ∧ s.drc.debt < 8 ∧ s.phase ≠ .resetHeld ∧ s.wra.queue = [] ∧ s.wra.reads = [] ∧
          s.pmp.holding = none ∧ ∀ j : Slot, s.links[j].waiting = false) ∧
      (heldUp.phase = .operating ∧ heldUp.later = none ∧ heldUp.held = [.ssqRequest 4 100] ∧ heldUp.holds (.slot 4) = true ∧ heldUp.holds (.psu 1) = true ∧
        heldUp.inv.reading = some { bay := 1, word0 := none } ∧ heldUp.holds (.entry (bayEntry 1)) = true ∧
        64 ≤ heldUp.wra.queue.length) ∧
      (let w := updateWaits.wra; let rest := w.waiting.drop 1;
        (∀ x ∈ rest, holdsWord w.queue x.off = false) ∧ holdsWord w.queue 70 = false ∧
          ∀ x ∈ rest, ∀ y ∈ rest, x.off ≠ y.off → x.precedes y = false) := by decide +kernel

/-- The port has held an access while the arbiter served others. -/
def portHolds (r : PortAccess) : State :=
  { op with pmp := { strobe := some r, holding := some r, current := true, ready := false, dataOut := none } }

theorem witness_ArbiterServesInOrder_port :
    (∀ r : PortAccess, (portHolds r).phase = .operating ∧ (portHolds r).drc.started = true ∧ (portHolds r).drc.debt < 8 ∧
        (portHolds r).wra.queue = [] ∧ (portHolds r).wra.reads = [] ∧ memWf (portHolds r).mem = true ∧
        (portHolds r).pmp = { strobe := some r, holding := some r, current := true, ready := false, dataOut := none }) ∧
      (imageOffset (imageAddress 0x100).toNat = some 0x100 ∧ assigned 0x100 = true) ∧ imageOffset (0#19).toNat = none ∧
      0x14 < 0x1000 ∧ discardsWrite (kindAt 0x14) = false := ⟨fun _ => ⟨rfl, rfl, (by decide : op.drc.debt < 8), rfl, rfl, rfl, rfl⟩, by decide +kernel⟩

theorem witness_ArbiterServesInOrder :
    (fullQueue.drc.started = true ∧ fullQueue.drc.debt = 8) ∧
      ({ inPhase .resetHeld with drc := { op.drc with debt := 1 } } : State).drc.debt = 1 ∧
      (inPhase .resetHeld).drc.started = true ∧
      (memWf updateWaits.mem = true ∧ updateWaits.drc.started = true ∧ updateWaits.drc.debt < 8 ∧ updateWaits.phase ≠ .resetHeld ∧
        updateWaits.wra.queue = { off := 0, kind := .whole 1#32 } :: updateWaits.wra.queue.drop 1) ∧
      (portReads.phase = .operating ∧ portReads.drc.started = true ∧ portReads.drc.debt < 8 ∧ portReads.wra.queue = [] ∧
        portReads.wra.reads = [] ∧ portReads.pmp.holding = some (.read 0#19) ∧ imageOffset (0#19).toNat = none ∧
        portReads.pmp.current = true ∧ portReads.pmp.strobe = some (.read 0#19)) ∧
      State.reset.drc.started = false ∧
      (updateWaits.phase = .operating ∧ updateWaits.wra.queue.length < 64 ∧
        updateWaits.wra.waiting = { off := 70, kind := .whole 2#32 } :: updateWaits.wra.waiting.drop 1) ∧
      (updateWaits.wra.readsWaiting = [.verify 1 1 0] ∧ updateWaits.wra.reads.length < 64) := by decide +kernel

theorem witness_WriteBacksKeepTheBitsOutsideThem :
    31 < 32 ∧ 255 < 256 ∧ (∀ l n c, UpdateKind.whole 1#32 ≠ .ack l n c) ∧ (∀ l n c, UpdateKind.fields 1#32 1#32 ≠ .ack l n c) ∧
      ∀ l n c, UpdateKind.flags 1#32 ≠ .ack l n c :=
  ⟨by decide, by decide, nofun, nofun, nofun⟩

theorem witness_ProcessorAccessesTheDram :
    (let s : State := { op with pmp := { Pmp.reset with holding := some (.read 0#19) } };
        s.pmp.holding = some (.read 0#19) ∧ s.pmp.strobe = none ∧ s.pmp.ready = false) ∧
      memWf op.mem = true ∧ FreePort op ∧ imageOffset (0x00000#19).toNat = none ∧ imageOffset (0x7BFFF#19).toNat = none ∧
      0 < 0x4000 ∧ 0x3FFF < 0x4000 ∧ discardsWrite (kindAt 0x3FFF) = true ∧ discardsWrite (kindAt 0x140) = true := by
  unfold FreePort; decide +kernel

/-! ## Witnesses: the slot links -/

theorem witness_FetchAndPeekRequestAndDeliverWords :
    (op.phase = .operating ∧ op.links[15].frame = none ∧ op.links[15].state ≠ .isolated) ∧
      windowOff 15 (0xBF % 1024) = some 0x13F ∧ assigned 0x13F = true ∧ windowOff 15 (0x00 % 1024) = some 0x5C0 ∧
      assigned 0x5C0 = true ∧ windowOff 15 (0xC0 % 1024) = none ∧
      (windowOff 15 (0xC0 % 1024)).any assigned = false ∧ (windowOff 15 (0x30 % 1024)).any assigned = false ∧
      windowOff 15 (0x3F % 1024) = some 0x5FF ∧ assigned 0x5FF = false ∧ windowOff 2 (frameOf .fetch).offset = some 0x280 ∧
      assigned 0x280 = true ∧
      (let f : Frame := { frameOf .fetch with answer := some 0x01020304#32 };
        (linkIn 2 f).links[2].frame = some f ∧ f.disregarded = false ∧ f.command = .fetch ∧ f.header = 2 ∧ f.unit = [] ∧
          f.answer = some 0x01020304#32) ∧
      (fullLink.phase = .operating ∧ fullLink.links[15].frame = none ∧ fullLink.links[15].state = .isolated) ∧
      (∀ p ∈ [Phase.resetHeld, .formatting true 0 1#32, .recovering 0, .identityReads],
        (inPhase p).phase ≠ .operating ∧ (inPhase p).links[15].frame = none) ∧
      (let f : Frame := { frameOf .store with disregarded := true };
        (linkIn 2 f).links[2].frame = some f ∧ f.disregarded = true) ∧
      (let f : Frame := { frameOf .peek with answer := some 0#32 };
        (linkIn 2 f).links[2].frame = some f ∧ f.disregarded = false ∧ f.command = .peek ∧ f.unit = [] ∧
          f.answer = some 0#32) := by decide +kernel

/-- A link one short of every limit of the STORE statement. -/
def storeLink : State := op.updLink 0 fun l =>
  { l with lec := 87, buffer := List.replicate 3 { off := 0x200, data := 1#32, mask := none } }

/-- Every crossing of a violation: to WARNING, RESTRICTED and ISOLATED, none below and none at the top; and the forms of a MERGE. -/
theorem witness_StoreAndMergeBufferTheirWords_crossings :
    (∀ n ∈ [87, 88, 119, 120, 246, 247, 255], let s := op.updLink 0 fun l => { l with lec := n };
        s.phase = .operating ∧ s.links[0].frame = none ∧ s.links[0].state = .normal ∧ s.acts (.link 0) ∧ s.links[0].lec = n) ∧
      (∀ c ∈ [Instr.store 0 0x080#16 1#32, .merge 0 0x3FF#16 1#32 1#32], Fits storeLink (effect c storeLink)) ∧
      (windowOff 0 (0x00F % 1024) = some 0x20F ∧ kindAt 0x20F = .commit 0 ∧ (0xFFFFFF00#32 &&& 0xFF#32 = 0#32) ∧
        (0x80#32 &&& 0xFF#32 ≠ 0#32)) ∧
      (windowOff 0 (0x000 % 1024) = some 0x200 ∧ kindAt 0x200 = .blade 0 (recordFields 0) ∧
        BitVec.allOnes 32 &&& fieldsMask (recordFields 0) ≠ 0#32) ∧
      (let s := storeLink.updLink 0 fun l => { l with buffer := List.replicate 4 { off := 0x200, data := 1#32, mask := none } };
        s.links[0].buffer.length = 4 ∧ s.acts (.link 0) ∧ Fits s (effect (.merge 0 0#16 1#32 1#32) s) ∧
          Fits s (effect (.store 0 0#16 1#32) s)) := by decide +kernel

theorem witness_StoreAndMergeBufferTheirWords :
    (storeLink.phase = .operating ∧ storeLink.links[0].frame = none ∧ storeLink.links[0].state = .normal ∧
        storeLink.links[0].lec < 88 ∧ storeLink.links[0].buffer.length < 4) ∧
      (windowOff 0 ((0x400#16).toNat % 1024) = some 0x200 ∧ kindAt 0x200 = .blade 0 (recordFields 0)) ∧
      (windowOff 0 (0x7F % 1024) = some 0x63F ∧ kindAt 0x63F = .blade 0 [⟨0, 32, .any⟩]) ∧
      (windowOff 0 (0x010 % 1024) = some 0x210 ∧ kindAt 0x210 = .device ∧ windowOff 0 (0x03F % 1024) = some 0x23F ∧
        kindAt 0x23F = .unassigned ∧ 0x200 ≤ 0x210 ∧ 0x23F < 0x600) ∧
      (let s := storeLink.updLink 0 fun l => { l with buffer := List.replicate 4 { off := 0x200, data := 1#32, mask := none } };
        s.phase = .operating ∧ s.links[0].frame = none ∧ s.links[0].state = .normal ∧ s.links[0].lec < 88 ∧
          s.links[0].buffer.length = 4) ∧
      0x080 ≤ 0x080 % 1024 ∧ 0x080 ≤ 0x3FF % 1024 ∧
      (0xFFFFFFFE#32 ≠ BitVec.allOnes 32 ∧ 0xFFFFFFFE#32 &&& fieldsMask (recordFields 0) ≠ 0#32) ∧
      (0xFFFF0000#32 ≠ BitVec.allOnes 32 ∧ 0xFFFF0000#32 &&& fieldsMask (recordFields 0) = 0#32) ∧
      (let s := op.updLink 3 fun l => { l with lec := 128, state := .restricted };
        s.phase = .operating ∧ s.links[3].frame = none ∧ s.links[3].state ≠ .normal) ∧
      (fullLink.phase = .operating ∧ fullLink.links[15].frame = none ∧ fullLink.links[15].state ≠ .normal) := by decide +kernel

/-- The counts at which one more error makes no crossing, and those at which it makes each of the three. -/
def errorCounts : List Nat × List Nat × List Nat × List Nat := ([0, 87, 96, 119, 128, 246, 255], [88, 95], [120, 127], [247, 254])

theorem witness_ErrorsAreCountedAndFramesJudged :
    (unknownOk 0x00#8 = true ∧ unknownOk 0xFF#8 = true ∧ op.phase = .operating ∧ op.links[1].frame = none ∧
        op.links[1].state ≠ .isolated ∧ fullLink.links[15].frame = none ∧ fullLink.links[15].state = .isolated) ∧
      (let at' := fun n : Nat => (op.updLink 1 fun l => { l with lec := n }).links[1].lec;
        (∀ n ∈ errorCounts.1, min 255 (at' n + 8) < 96 ∨ (96 ≤ at' n ∧ min 255 (at' n + 8) < 128) ∨
          (128 ≤ at' n ∧ min 255 (at' n + 8) < 255) ∨ 255 ≤ at' n) ∧
        (∀ n ∈ errorCounts.2.1, at' n < 96 ∧ 96 ≤ min 255 (at' n + 8)) ∧
        (∀ n ∈ errorCounts.2.2.1, 96 ≤ at' n ∧ at' n < 128 ∧ 128 ≤ min 255 (at' n + 8)) ∧
        ∀ n ∈ errorCounts.2.2.2, 128 ≤ at' n ∧ at' n < 255 ∧ min 255 (at' n + 8) = 255) ∧
      (∀ c : FrameCommand, (linkBytes 2 [] (linkIn 2 (frameOf c))).links[2].frame = some (frameOf c)) ∧
      (frameOf .peek).short = false ∧ (frameOf .merge).short = true ∧
      (linkBytes 2 [] (linkIn 2 { frameOf .fetch with disregarded := true })).links[2].frame =
        some { frameOf .fetch with disregarded := true } ∧
      (linkBytes 2 [] (linkIn 2 { frameOf .store with errored := true })).links[2].frame =
        some { frameOf .store with errored := true } ∧
      (∀ a : ActivityState, let s := (linkIn 2 (frameOf .peek)).updSlot 2 fun q => { q with activity := a, activityCount := 31 };
        (linkBytes 2 [] s).links[2].frame = some (frameOf .peek) ∧ (frameOf .peek).disregarded = false ∧
          s.acts (.slot 2) ∧ s.acts (.link 2) ∧ Fits s (effect (.frameEnd 2 []) s) ∧ s.ssq.slots[2].activity = a ∧ s.ssq.slots[2].activityCount ≠ 0) ∧
      (let s := { linkIn 4 (frameOf .peek) with wra := heldUp.wra };
        (linkBytes 4 [] s).links[4].frame = some (frameOf .peek) ∧ s.later = none ∧ s.holds (.slot 4) = true) ∧
      op.acts (.link 1) ∧ Fits op (effect (.unknownCommand 1 0xFF#8) op) := by
  refine ⟨by decide +kernel, by decide +kernel, fun c => ?_, by decide +kernel, by decide +kernel, by decide +kernel, by decide +kernel,
    fun a => ?_, by decide +kernel, by decide +kernel⟩
  on_goal 2 => cases a <;> decide +kernel
  cases c <;> decide +kernel

theorem witness_BladeWritesArePerformed :
    memWf op.mem = true ∧ FreeLink op 0 ∧ op.acts (.slot 0) ∧ Fits op (effect (.request 0 2001#32) op) ∧ FreeLink op 15 ∧ windowOff 0 (0xC0#16).toNat = none ∧
      windowOff 15 (0xFFFF#16).toNat = none := by
  unfold FreeLink; decide +kernel

/-! ## Witnesses: the processor's writes -/

theorem witness_RangeSettingsAreStoredInRange :
    memWf op.mem = true ∧ FreePort op ∧ op.acts .available ∧ op.acts .pal ∧
      ∀ c ∈ [Instr.margin 1001#32, .baseLoad 0#32, .defaultStandbyAllowance 4#32, .floorDuty 3 101#32, .fanWattsAtFullDuty 0 255#32,
        .moduleFloorDuty 100#32, .zoneCurveSetting 1 .tLowHigh 0xFFD70097#32, .zoneCurveSetting 1 .dMin 0#32, .zoneCurveSetting 1 .dMax 255#32,
        .tCrit 2 0x8000#32], Fits op (effect c op) := by
  unfold FreePort; decide +kernel

/-- A free port at the largest debt that lets it through, with words in the DRAM. -/
def busyMemory : State := { op with mem := [(0, 1#32), (0x7C004, 9#32), (0x7FFFF, 3#32)], drc := { op.drc with debt := 7 } }

theorem witness_CodeAndFlagSettingsAreTaken : 
    memWf busyMemory.mem = true ∧ FreePort busyMemory ∧
      (∀ k ∈ [Scope.available, .slot 15, .pal, .word 0x100, .word 0x1D1], busyMemory.acts k) ∧
      ∀ c ∈ [Instr.modeRequest 2#32, .redundancyPolicy 3#32, .powerClass 15 2#32, .activityAction 15 1#32, .eventGroupEnables 0#32,
        .enable 15 0#32, .activityCount 15 31#32, .locate 15 1#32, .forcedThrottle 15 0x100#32], Fits busyMemory (effect c busyMemory) := by
  unfold FreePort; decide +kernel

theorem witness_PreferenceListIsCutAtItsFirstBadEntry :
    memWf op.mem = true ∧ FreePort op ∧ ([0, 1, 2] : List Nat).head? = some 0 ∧
      (op.updPlacement 4 fun p => { p with prefs := [] }).ulc.slots[4].prefs = [] ∧ 0 ∈ cutPrefs [] [1, 2] ++ [0] ∧
      1 ∈ cutPrefs [] [1, 2] := by
  unfold FreePort; decide +kernel

/-- A ring with its head at 63 and its tail at 2. -/
def ringAt : State :=
  { op with mem := [(0x7C014, 63#32)] }.updMeu fun m =>
    { m with head := 63, tail := 2, writePos := 4, records := [0, 7] }

theorem witness_RingHeadNeverPassesTheTail :
    memWf ringAt.mem = true ∧ FreePort ringAt ∧ getField (ringAt.image 0x14) 0 16 < 64 ∧ ringAt.meu.tail < 64 ∧
      Rested ringAt ∧
      (let kept := fun (h0 h : Nat) => if (h + 64 - h0) % 64 ≤ (2 + 64 - h0) % 64 then h else 2;
        kept 63 2 = 2 ∧ kept 63 1 = 1 ∧ kept 63 3 = 2 ∧ kept 63 62 = 2 ∧ (ringAt.meu.writePos + 1) % 64 ≠ kept 63 2) := by
  unfold FreePort Rested; decide +kernel

theorem witness_FlagsMarkerAndSummaryCode :
    memWf ringAt.mem = true ∧ FreePort ringAt ∧ ringAt.acts (.word 0x1D1) ∧
      (∀ c ∈ [Instr.groupFlagsClear 0#32, .imageMarkerWrite 1#32, .eventRingHead 1#32], Fits ringAt (effect c ringAt)) ∧ attention 0x81#8 0x80#8 = true ∧ attention 0x01#8 0x80#8 = false := by
  unfold FreePort; decide +kernel

theorem witness_CommandWordsStoreZero :
    memWf (slotIn 3 .fault).mem = true ∧ FreePort (slotIn 3 .fault) ∧ (1#32).getLsbD 0 = true ∧ (0xFFFFFFFE#32).getLsbD 0 = false ∧
      (slotIn 3 .fault).ssq.slots[3].state = .fault ∧ Rested (slotIn 3 .fault) ∧
      (∀ k ∈ [Scope.slot 3, .link 3, .word 0x104, .psu 0], (slotIn 3 .fault).acts k) ∧
      (slotIn 3 .fault).wra.waiting = [] ∧ (slotIn 3 .fault).held = [] ∧
      ∀ c ∈ [Instr.abort 0#32, .clockLoad 1#32, .faultClear 3 1#32, .linkClear 3 1#32, .psuClear 0 1#32, .uplinkClear 3 1#32],
        Fits (slotIn 3 .fault) (effect c (slotIn 3 .fault)) := by
  unfold FreePort Rested; decide +kernel

theorem witness_CommandNoticesAct :
    FreePort (slotIn 3 .fault) ∧ (1#32).getLsbD 0 = true ∧ (slotIn 3 .fault).ssq.slots[3].state = .fault ∧ (slotIn 3 .fault).acts (.slot 3) ∧
      FreeLink (slotIn 3 .fault) 3 ∧
      (FreePort (psuIn 5 .online) ∧ (psuIn 5 .online).psm.bays[5].state = .online) ∧
      (FreePort (psuIn 5 .retired) ∧ (psuIn 5 .retired).psm.bays[5].state = .retired ∧
        (psuIn 5 .retired).psm.bays[5].alert = false) ∧
      (FreePort (psuIn 0 .faulted) ∧ (psuIn 0 .faulted).psm.bays[0].state = .faulted ∧
        (psuIn 0 .faulted).psm.bays[0].alert = false) ∧
      (FreePort (uplinkIn 3 .linkDown) ∧ (uplinkIn 3 .linkDown).ulc.bays[3].state = .linkDown) ∧
      (FreePort (uplinkIn 3 .fault) ∧ (uplinkIn 3 .fault).ulc.bays[3].state = .fault) := by
  unfold FreePort FreeLink; decide +kernel

theorem witness_CommandNoticesAct_bays :
    (∀ st : PsuState, FreePort (psuIn 5 st) ∧ (psuIn 5 st).acts (.psu 5) ∧ (psuIn 5 st).psm.bays[5].state = st) ∧
      ∀ st : UplinkState, FreePort (uplinkIn 3 st) ∧ (uplinkIn 3 st).ulc.bays[3].state = st := by
  unfold FreePort; exact ⟨fun st => by cases st <;> decide +kernel, fun st => by cases st <;> decide +kernel⟩

theorem witness_CommandNoticesAct_handed :
    ∀ (st : SlotState) (m : Mode), let s := (slotIn 0 st).updMeu fun x => { x with actual := m };
      s.acts (.slot 0) ∧ s.ssq.slots[0].state = st ∧ s.meu.actual = m := by
  intro st m; cases st <;> cases m <;> decide +kernel

theorem witness_CommandNoticesAct_by_state :
    ∀ st : SlotState, (slotIn 15 st).ssq.slots[15].state = st ∧ (slotIn 15 st).acts (.slot 15) ∧
      (slotIn 15 st).ssq.slots[15].enabled = true ∧ (slotIn 15 st fun q => { q with enabled := false }).ssq.slots[15].enabled = false ∧
      (slotIn 15 st fun q => { q with enabled := false }).ssq.slots[15].state = st := by
  intro st; cases st <;> decide +kernel

/-- The MEU at a mode, with a change pending or not, and counts. -/
def modeAt (m : Mode) (pending : Bool) (mainUp powering : Nat) : State :=
  op.updMeu fun x => { x with actual := m, changePending := pending, mainUpCount := mainUp, poweringCount := powering }

theorem witness_ModeRequestsChangeTheMode :
    (modeAt .configure false 0 0).meu.actual ≠ .operate ∧ (modeAt .quiesce false 0 0).meu.actual ≠ .operate ∧
      ((modeAt .operate false 0 0).meu.actual = .operate ∧ (modeAt .operate false 0 0).meu.changePending = false ∧
        (modeAt .operate false 0 0).meu.mainUpCount = 0 ∧ (modeAt .operate false 0 0).meu.poweringCount = 0) ∧
      (modeAt .operate false 1 0).meu.mainUpCount ≠ 0 ∧ (modeAt .operate false 0 1).meu.poweringCount ≠ 0 ∧
      ((modeAt .operate true 1 0).meu.actual = .operate ∧ (modeAt .operate true 1 0).meu.changePending = true) ∧
      FreePort (modeAt .operate true 1 0) ∧ (modeAt .operate true 1 0).acts (.word 0x100) := by
  unfold FreePort; decide +kernel

/-! ## Witnesses: slot sequencing -/

theorem witness_RawReadingAndDebounceDecide :
    (Acting (.slot 0) op ∧ op.ssq.slots[0].raw ≠ readingOfLines true true ∧ op.ssq.slots[0].raw ≠ readingOfLines true false ∧
        op.ssq.slots[0].debounce = none ∧ op.ssq.slots[0].raw = readingOfLines false false) ∧
      (let s := slotIn 0 .detecting fun q => { q with raw := .seated, debounce := some 1 };
        Acting (.slot 0) s ∧ s.ssq.slots[0].debounce = some 1 ∧ s.ssq.slots[0].state = .detecting ∧ s.ssq.slots[0].raw = .seated ∧
          s.ssq.slots[0].enabled = true) ∧
      (let s := slotIn 0 .detecting fun q => { q with raw := .seated, debounce := some 1, enabled := false };
        Acting (.slot 0) s ∧ s.ssq.slots[0].debounce = some 1 ∧ s.ssq.slots[0].state = .detecting ∧ s.ssq.slots[0].raw = .seated ∧
          s.ssq.slots[0].enabled = false) ∧
      (let s := slotIn 0 .detecting fun q => { q with raw := .unlatched, debounce := some 1 };
        Acting (.slot 0) s ∧ s.ssq.slots[0].debounce = some 1 ∧ s.ssq.slots[0].state = .detecting ∧ s.ssq.slots[0].raw = .unlatched) ∧
      (let s := slotIn 0 .run fun q => { q with raw := .unlatched, debounced := .seated, debounce := some 1 };
        Acting (.slot 0) s ∧ s.ssq.slots[0].debounce = some 1 ∧ s.ssq.slots[0].state = .run ∧ s.ssq.slots[0].raw = .unlatched ∧
          s.ssq.slots[0].debounced = .seated) ∧
      (let s := slotIn 0 .fault fun q => { q with raw := .absent, debounced := .seated, debounce := some 1 };
        Acting (.slot 0) s ∧ s.ssq.slots[0].debounce = some 1 ∧ s.ssq.slots[0].state ≠ .empty ∧ s.ssq.slots[0].state ≠ .detecting ∧
          s.ssq.slots[0].raw = .absent ∧ s.ssq.slots[0].debounced ≠ .absent ∧ s.acts (.entry (slotEntry 0)) ∧ s.acts (.link 0)) := by
  decide +kernel

theorem witness_RawReadingAndDebounceDecide_arrivals :
    (∀ r ∈ [Reading.seated, .unlatched, .absent, .invalid], ∀ arrived : Bool,
        let s := slotIn 0 .detecting fun q => { q with raw := r, debounce := some 1, arrived := arrived };
        Acting (.slot 0) s ∧ s.ssq.slots[0].debounce = some 1 ∧ s.ssq.slots[0].state = .detecting ∧ s.ssq.slots[0].raw = r ∧
          s.ssq.slots[0].arrived = arrived) ∧
      ∀ st ∈ [SlotState.held, .standbyUp, .identifying, .ready, .admitWait, .mainUp],
        let s := slotIn 0 st fun q => { q with raw := .unlatched, debounced := .seated, debounce := some 1 };
        Acting (.slot 0) s ∧ s.ssq.slots[0].debounce = some 1 ∧ s.ssq.slots[0].state = st ∧ s.ssq.slots[0].raw = .unlatched ∧
          s.ssq.slots[0].debounced = .seated := by decide +kernel

theorem witness_PowerGoodsAndDelaysMoveTheSlotOn :
    (waiting 2 .standbyUp .standbyTimeout).ssq.slots[2].waits .standbyTimeout = true ∧
      (waiting 2 .mainUp .mainTimeout).ssq.slots[2].waits .mainTimeout = true ∧
      (Acting (.slot 2) (waiting 2 .standbyUp .standbyStep) ∧
        (waiting 2 .standbyUp .standbyStep).ssq.slots[2].waits .standbyStep = true ∧
        ((waiting 2 .standbyUp .standbyStep).bladeEntry 2).state ≠ .valid) ∧
      (let s := bladeIn 2 .valid (waiting 2 .standbyUp .standbyStep fun q => { q with request := 1 });
        s.ssq.slots[2].waits .standbyStep = true ∧ (s.bladeEntry 2).state = .valid ∧ s.ssq.slots[2].request ≠ 0 ∧
          s.ssq.slots[2].enabled = true ∧ s.meu.actual ≠ .quiesce ∧ s.ssq.slots[2].abortHold = false ∧
          s.ssq.slots[2].shedHold = false ∧ s.ssq.slots[2].linkState = .normal) ∧
      (let s := bladeIn 2 .valid (waiting 2 .standbyUp .standbyStep);
        s.ssq.slots[2].waits .standbyStep = true ∧ (s.bladeEntry 2).state = .valid ∧ ¬s.ssq.slots[2].request ≠ 0) ∧
      (waiting 2 .mainUp .mainStep).ssq.slots[2].waits .mainStep = true ∧
      ((waiting 2 .mainDown .mainDown fun q => { q with enabled := false }).ssq.slots[2].waits .mainDown = true ∧
        (waiting 2 .mainDown .mainDown fun q => { q with enabled := false }).ssq.slots[2].enabled = false) ∧
      (let s := waiting 2 .mainDown .mainDown;
        s.ssq.slots[2].waits .mainDown = true ∧ s.ssq.slots[2].enabled = true ∧ s.ssq.slots[2].debounced ≠ .unlatched ∧
          (s.bladeEntry 2).state ≠ .valid) ∧
      (let s := bladeIn 2 .valid (waiting 2 .mainDown .mainDown fun q => { q with request := 1 });
        s.ssq.slots[2].waits .mainDown = true ∧ s.ssq.slots[2].enabled = true ∧ s.ssq.slots[2].debounced ≠ .unlatched ∧
          (s.bladeEntry 2).state = .valid ∧ s.ssq.slots[2].request ≠ 0) ∧
      (waiting 2 .standbyDown .standbyDown).ssq.slots[2].waits .standbyDown = true := by
  decide +kernel

theorem witness_SlotFaultsFollowTheirCause :
    (let s := slotIn 9 .mainDown fun q => { q with sbyPg := true };
        Acting (.slot 9) s ∧ s.ssq.slots[9].sbyPg = true ∧
          s.ssq.slots[9].state ∈ [.identifying, .ready, .admitWait, .mainUp, .run, .detach, .mainDown]) ∧
      (let s := waiting 9 .standbyUp .standbyStep fun q => { q with sbyPg := true };
        s.ssq.slots[9].sbyPg = true ∧ s.ssq.slots[9].state = .standbyUp ∧ s.ssq.slots[9].waits .standbyStep = true) ∧
      (slotIn 9 .run).ssq.slots[9].sbyPg = false ∧
      (slotIn 9 .standbyDown fun q => { q with sbyPg := true }).ssq.slots[9].state ∈
        [.empty, .detecting, .held, .standbyDown, .fault] ∧
      (let s := waiting 9 .standbyUp .standbyTimeout fun q => { q with sbyPg := true };
        s.ssq.slots[9].state = .standbyUp ∧ s.ssq.slots[9].waits .standbyStep = false) ∧
      (let s := slotIn 9 .detach fun q => { q with mainPg := true };
        s.ssq.slots[9].mainPg = true ∧ s.ssq.slots[9].state ∈ [.run, .detach]) ∧
      (let s := waiting 9 .mainUp .mainStep fun q => { q with mainPg := true };
        s.ssq.slots[9].mainPg = true ∧ s.ssq.slots[9].state = .mainUp ∧ s.ssq.slots[9].waits .mainStep = true) ∧
      (slotIn 9 .mainDown fun q => { q with mainPg := true }).ssq.slots[9].state ∉ [.mainUp, .run, .detach] ∧
      (let s := waiting 9 .mainUp .mainTimeout fun q => { q with mainPg := true };
        s.ssq.slots[9].state = .mainUp ∧ s.ssq.slots[9].waits .mainStep = false ∧ s.ssq.slots[9].waits .mainTimeout = true) ∧
      (waiting 9 .standbyUp .standbyTimeout).ssq.slots[9].waits .standbyTimeout = true ∧
      (waiting 9 .identifying .identity).ssq.slots[9].waits .identity = true ∧
      (op.ssq.slots[9].waits .standbyTimeout = false ∧ op.ssq.slots[9].waits .identity = false ∧
        op.ssq.slots[9].waits .mainTimeout = false) := by
  decide +kernel

theorem witness_AdmitWaitNeedsEveryCondition :
    mayWait (slotIn 0 .ready fun q => { q with request := 1 }) 0 = true ∧ mayWait (slotIn 0 .ready) 0 = false := by decide +kernel

theorem witness_ActivityTimerMakesASlotSilent :
    (let s := slotIn 1 .run fun q => { q with activity := .watching, activityTimer := some 1, activityCount := 31 };
        Acting (.slot 1) s ∧ s.ssq.slots[1].activityTimer = some 1 ∧ s.ssq.slots[1].activity = .watching ∧
          0 < s.ssq.slots[1].activityCount) ∧
      (slotIn 1 .run fun q => { q with activity := .silent, activityCount := 1 }).ssq.slots[1].activity = .silent ∧
      op.ssq.slots[1].activity = .stopped ∧ Acting (.slot 1) op ∧ op.ssq.slots[1].activityTimer = none := by
  decide +kernel

/-! ## Witnesses: inventory -/

theorem witness_ModulePresenceIsDebounced :
    (Acting (.entry (bayEntry 9)) op ∧ op.inv.bays[9].raw ≠ true ∧ op.inv.bays[9].debounce = none) ∧
      (let s := op.updBay 9 fun x => { x with raw := true, debounce := some 1 };
        Acting (.entry (bayEntry 9)) s ∧ s.inv.bays[9].debounce = some 1 ∧ s.inv.bays[9].raw = true ∧
          s.inv.bays[9].present = false) ∧
      (let s := op.updBay 9 fun x => { x with present := true, debounce := some 1 };
        s.inv.bays[9].debounce = some 1 ∧ s.inv.bays[9].raw = false ∧ s.inv.bays[9].present = true ∧
          ({ s with inv := { s.inv with reading := some { bay := 9, word0 := none } } } : State).inv.reading =
            some { bay := 9, word0 := none }) ∧
      (let s := op.updBay 9 fun x => { x with raw := true, present := true, debounce := some 1 };
        s.inv.bays[9].debounce = some 1 ∧ s.inv.bays[9].raw = s.inv.bays[9].present) ∧
      (op.acts (.psu 5) ∧ (psuIn 5 .online).psm.bays[5].state ≠ .empty ∧ op.psm.bays[5].state = .empty ∧ (psuIn 5 .rejected).psm.bays[5].state ≠ .empty ∧
        op.ulc.bays[3].state = .empty ∧ (uplinkIn 3 .up).ulc.bays[3].state ≠ .empty) := by
  decide +kernel

/-- Word 0 of a record of version 1, with a kind and a length. -/
def word0 (kind length : Nat) : Word := putField 16 1 ||| putField 8 kind ||| putField 0 length

theorem witness_ReaderReadsOneBayAtATime :
    (let s := { op with inv := { op.inv with queue := [3, 5] } };
        Acting (.entry (bayEntry 3)) s ∧ s.inv.reading = none ∧ s.inv.queue = [3, 5]) ∧
      (readingBay 3 none).inv.reading = some { bay := 3, word0 := none } ∧ Acting (.entry (bayEntry 3)) (readingBay 3 none) ∧
      (let s := readingBay 3 none; let t := { s with inv := { s.inv with queue := [3] } };
        t.inv.reading.isSome = true ∧ t.inv.queue.head? = some 3) ∧
      op.inv.queue = [] ∧ op.inv.reading = none ∧
      checkWord0 (kindOf (bayEntry 3)) none (word0 2 8) = none ∧ checkWord0 (kindOf (bayEntry 3)) none (word0 2 63) = none ∧
      (checkWord0 (kindOf (bayEntry 3)) none (word0 1 8) = some .kind ∧
        (readingBay 3 none).inv.entries[bayEntry 3].state = .reading) ∧
      (readingBay 3 (some (word0 2 8))).inv.reading = some { bay := 3, word0 := some (word0 2 8) } ∧
      (getField (word0 2 7) 16 8 = 1 ∧ getField (word0 2 7) 8 8 = Kind.psu.code ∧ getField (word0 2 7) 0 8 < 8) ∧
      63 < getField (word0 2 64) 0 8 ∧ (8 ≤ getField (word0 2 63) 0 8 ∧ getField (word0 2 63) 0 8 ≤ 63) ∧
      getField 0#32 16 8 ≠ 1 ∧ getField (word0 3 8) 8 8 ≠ Kind.psu.code := by
  decide +kernel

theorem witness_ModuleRecordGetsItsVerdict :
    (let s := readingBay 8 (some (word0 3 8));
        Acting (.entry (bayEntry 8)) s ∧ s.inv.reading = some { bay := 8, word0 := some (word0 3 8) } ∧
          (List.replicate 6 0#32 ++ [-word0 3 8]).length + 1 = getField (word0 3 8) 0 8 ∧
          s.inv.entries[bayEntry 8].state = .reading ∧
          (word0 3 8 :: (List.replicate 6 0#32 ++ [-word0 3 8])).foldl (· + ·) 0#32 = 0#32 ∧
          (word0 3 8 :: List.replicate 7 0#32).foldl (· + ·) 0#32 ≠ 0#32) ∧
      ([] : List Word).length + 1 ≠ getField (word0 3 8) 0 8 ∧ (List.replicate 13 1#32).length ≤ 12 + 1 ∧
      12 + 1 < (List.replicate 14 1#32).length ∧
      (op.acts (.psu 0) ∧ op.psm.bays[0].state ≠ .identifying ∧ (psuIn 0 .identifying).psm.bays[0].state = .identifying ∧
        (psuIn 0 .identifying).psm.bays[0].alert = false ∧ op.ulc.bays[2].state ≠ .identifying ∧
        (uplinkIn 2 .identifying).ulc.bays[2].state = .identifying) := by
  decide +kernel

theorem witness_FailedReadsAreRetried :
    (let s := readingBay 0 none 2;
        Acting (.entry (bayEntry 0)) s ∧ s.inv.reading = some { bay := 0, word0 := none } ∧ s.inv.entries[bayEntry 0].attempts < 3) ∧
      (let s := readingBay 0 (some 1#32) 3;
        s.inv.reading = some { bay := 0, word0 := some 1#32 } ∧ 3 ≤ s.inv.entries[bayEntry 0].attempts ∧
          s.inv.entries[bayEntry 0].state = .reading) ∧
      (let s := readingBay 0 none 2;
        let start := [LineSymbol.start, .address 0x50#7 false, .byte 0#8, .repeatedStart, .address 0x50#7 true];
        let t : State := { s with inv := { s.inv with sent := start } };
        t.inv.sent = [] ++ start ∧ t.inv.reading = some { bay := 0, word0 := none } ∧ 5 ≤ 5 ∧ 5 < 6 ∧ 8 < 5 + 4) ∧
      Acting (.entry (bayEntry 0)) op ∧ op.inv.reading = none ∧ (op.updBay 0 fun x => { x with retry := some 1 }).inv.bays[0].retry = some 1 ∧
      op.inv.bays[0].retry = none := by
  decide +kernel

/-- A verification of `length` words with the first `k` words taken and the next requested. -/
def verifying (i : Slot) (length k : Nat) : State :=
  let s := bladeIn i .verifying
  { s with wra := { s.wra with reads := [.verify i 1 k] } }.setVerification i
    (some { length := length, serial := 1, words := List.replicate k 0#32, sum := 0#32 })

theorem witness_VerificationReadsWordByWord :
    (bladeIn 7 .pending).bladeEntry 7 = (bladeIn 7 .pending).inv.entries[slotEntry 7] ∧
      ((bladeIn 7 .pending).bladeEntry 7).state = .pending ∧
      (let v : Verification := { length := 8, serial := 1, words := List.replicate 6 0#32, sum := 0#32 };
        let s := verifying 7 8 6;
        s.inv.verifications[7] = some v ∧ (s.bladeEntry 7).state = .verifying ∧ Acting (.entry (slotEntry 7)) s ∧ s.drc.started = true ∧
          s.drc.debt < 8 ∧ s.wra.queue = [] ∧ s.wra.reads = [.verify 7 v.serial v.words.length] ∧ s.wra.readsWaiting = [] ∧
          v.words ≠ [] ∧ v.words.length + 1 < v.length) ∧
      (let v : Verification := { length := 63, serial := 1, words := List.replicate 62 0#32, sum := 0#32 };
        let s := verifying 7 63 62;
        s.inv.verifications[7] = some v ∧ (s.bladeEntry 7).state = .verifying ∧ Acting (.entry (slotEntry 7)) s ∧
          s.wra.reads = [.verify 7 v.serial v.words.length] ∧ v.words ≠ [] ∧ v.length ≤ v.words.length + 1) ∧
      (op.phase = .operating ∧ op.wra.reads = []) ∧
      (let v : Verification := { length := 8, serial := 1, words := [], sum := 0#32 };
        let s := { verifying 7 8 0 with mem := [(0x7C7C0, 1#32)] };
        Acting (.entry (slotEntry 7)) s ∧ s.inv.verifications[7] = some v ∧ s.wra.reads = [.verify 7 1 0] ∧
          (s.bladeEntry 7).state = .verifying ∧ checkWord0 .blade (some v.length) (s.image (0x600 + 7 * 64 + 0)) = some .version) ∧
      (let v : Verification := { length := 8, serial := 1, words := [], sum := 0#32 };
        let s := { verifying 7 8 0 with mem := [(0x7C7C0, 0x00010108#32)] };
        checkWord0 .blade (some v.length) (s.image (0x600 + 7 * 64 + 0)) = none ∧ v.words.length + 1 < v.length) := by
  decide +kernel

/-- A profile of the smallest figures. -/
def smallBlade : Profile := .blade ⟨5, 50, 50, 0, 1⟩

theorem witness_VerificationReadsWordByWord_identity :
    ((bladeIn 7 .valid).bladeEntry 7).state = .valid ∧
      (let s := (bladeIn 7 .valid).updSlot 7 fun q => { q with state := .run };
        (s.bladeEntry 7).state = .valid ∧ s.ssq.slots[7].state ∈ [.mainUp, .run, .detach, .mainDown]) ∧
      (bladeIn 7 .valid).ssq.slots[7].state ∉ [.mainUp, .run, .detach, .mainDown] ∧
      ((bladeIn 7 .valid).updEntry (slotEntry 7) fun e => { e with pending := some smallBlade }).inv.entries[slotEntry 7].pending =
        some smallBlade ∧
      ((bladeIn 7 .valid).bladeEntry 7).pending = none ∧
      (1 ≤ 7 ∧ 7 < 8 ∧ 63 < 64 ∧ ((bladeIn 7 .pending).bladeEntry 7).state = .pending) ∧
      (verifying 7 8 0).inv.verifications[7] = some { length := 8, serial := 1, words := [], sum := 0#32 } ∧
      ((verifying 7 8 0).bladeEntry 7).state = .verifying := by decide +kernel

/-! ## Witnesses: supplies -/

theorem witness_PwrOkAndSupplyTimersMoveASupply :
    Acting (.psu 2) (psuIn 2 .starting fun p => { p with start := some 1 }) ∧
      (psuIn 2 .starting fun p => { p with start := some 1 }).psm.bays[2].start = some 1 ∧
      (psuIn 2 .starting).psm.bays[2].state = .starting ∧ (psuIn 2 .online).psm.bays[2].state ≠ .starting ∧
      (let s := psuIn 2 .online fun p => { p with pwrOk := true, faults := 222 };
        s.psm.bays[2].state = .online ∧ s.psm.bays[2].pwrOk = true ∧ s.psm.bays[2].faults + 32 < 255) ∧
      ¬(psuIn 2 .online fun p => { p with pwrOk := true, faults := 223 }).psm.bays[2].faults + 32 < 255 ∧
      (psuIn 2 .online).psm.bays[2].pwrOk = false ∧ (psuIn 2 .faulted).psm.bays[2].state ≠ .online ∧
      (let s := psuIn 2 .faulted fun p => { p with restart := some 1 };
        s.psm.bays[2].state = .faulted ∧ s.psm.bays[2].restart = some 1 ∧ s.psm.bays[2].alert = false) ∧
      (let s := psuIn 2 .online fun p => { p with decay := some 1, faults := 0 };
        s.psm.bays[2].state = .online ∧ s.psm.bays[2].decay = some 1) ∧
      (op.psm.bays[2].start = none ∧ op.psm.bays[2].restart = none ∧ op.psm.bays[2].decay = none) := by
  decide +kernel

theorem witness_AlertsCountFaults :
    (∀ st : PsuState, st = .online ∨ st = .starting →
        let s := psuIn 4 st fun p => { p with alertRaw := true, alertTimer := some 1, faults := 247 };
        Acting (.psu 4) s ∧ s.psm.bays[4].alertTimer = some 1 ∧ s.psm.bays[4].alertRaw = true ∧ s.psm.bays[4].alert = false ∧
          (s.psm.bays[4].state = .online ∨ s.psm.bays[4].state = .starting)) ∧
      (let s := psuIn 4 .faulted fun p => { p with alertRaw := true, alertTimer := some 1 };
        s.psm.bays[4].alertTimer = some 1 ∧ s.psm.bays[4].alertRaw = true ∧ s.psm.bays[4].alert = false ∧
          s.psm.bays[4].state ≠ .online ∧ s.psm.bays[4].state ≠ .starting) ∧
      (let s := psuIn 4 .online fun p => { p with alert := true, alertTimer := some 1 };
        s.psm.bays[4].alertTimer = some 1 ∧ s.psm.bays[4].alertRaw = false ∧ s.psm.bays[4].alert = true) ∧
      op.psm.bays[4].alertTimer = none := by
  refine ⟨fun st h => ?_, by decide +kernel, by decide +kernel, by decide +kernel⟩
  rcases h with rfl | rfl <;> decide +kernel

theorem witness_CapacitiesAndPolicyFormRawAvailable :
    needMet .nPlusOne [800, 800, 0, 0, 0, 0] = true ∧ needMet .nPlusOne [800, 0, 0, 0, 0, 0] = false ∧
      needMet .nPlusN [0, 0, 1, 1, 0, 0] = true ∧ needMet .nPlusN [1, 1, 1, 0, 0, 0] = false ∧
      (psuIn 0 .online fun p => { p with faults := 255 }).psm.bays[0].faults ≤ 255 ∧
      op.acts .pal ∧ (psuIn 0 .online).psm.bays[0].state = .online ∧ (psuIn 0 .retired).psm.bays[0].state ≠ .online ∧
      (let two := (psuIn 0 .online fun p => { p with capacity := 800 }).updPsu 1 fun p => { p with capacity := 800 };
        let s := { two with psm := { two.psm with policy := .nPlusOne } };
        s.psm.lost = false ∧ (recomputeAvailable false s).psm.lost = false ∧
          (let lossy := { op with psm := { op.psm with policy := .nPlusOne } };
            lossy.psm.lost = false ∧ (recomputeAvailable false lossy).psm.lost = true) ∧
          let met := { s with psm := { s.psm with lost := true } };
          met.psm.lost = true ∧ (recomputeAvailable false met).psm.lost = false) := by decide +kernel

/-! ## Witnesses: power allocation -/

/-- An admitted slot with a plan and a grant. -/
def admitted (i : Slot) (f : Alloc → Alloc := id) : State :=
  op.updAlloc i fun a => f { a with standing := .admitted, state := .run, plan := some ⟨50, 300, 300⟩, grant := 200, inForce := 250 }

/-- A slot in the admission queue with room for its floor. -/
def queuedSlot : State :=
  (op.updAlloc 6 fun a => { a with
    standing := .standby, state := .admitWait, plan := some ⟨50, 300, 300⟩, request := 100, allowance := 20 }).updPal fun p =>
      { p with queue := [{ slot := 6, joined := 0 }], joins := 1, available := 3000, budget := 3000, mode := .operate }

theorem witness_TargetsKeepTheLawOfTheGrant :
    (300 : Nat) ≤ 300 ∧ (5 ∣ 300) ∧ (0 : Int) ≤ 0 ∧
      (admitted 6).pal.slots[6].plan = some ⟨50, 300, 300⟩ ∧ (admitted 6).pal.slots[6].standing = .admitted ∧
      ((op.updAlloc 6 fun a => { a with standing := .standby }).pal.slots[6].standing = .standby ∧
        6 ∉ (compute (op.updAlloc 6 fun a => { a with standing := .standby })).pal.admits) ∧
      ((admitted 6 fun a => { a with plan := none }).pal.slots[6].plan = none ∧
        (admitted 6 fun a => { a with plan := none }).pal.slots[6].standing = .admitted) ∧
      6 ∈ (compute queuedSlot).pal.admits ∧ queuedSlot.pal.slots[6].plan = some ⟨50, 300, 300⟩ ∧
      (op.pal.slots[6].standing = .none ∧ 6 ∉ (compute op).pal.admits) := by decide +kernel

theorem witness_TargetsKeepTheLawOfTheGrant_admission :
    (let s := (admitted 6 fun a => { a with cls := 2 }).updPal fun p => { p with budget := 49 };
        6 ∈ shedClass s.pal 2 ∧ [] <+: shedList s.pal 49 ∧ [] ≠ shedList s.pal 49) ∧
      (queuedSlot.pal.mode = .operate ∧ queuedSlot.pal.changePending = false ∧ queuedSlot.pal.deficit = false ∧
        [] ++ [({ slot := 6, joined := 0 } : QueuePlace)] <+: queuedSlot.pal.queue) ∧
      ((admitBlades queuedSlot.pal 29).stopped = some 6 ∧ queuedSlot.pal.blockedHead ≠ some 6 ∧
        queuedSlot.pal.slots[6].plan = some ⟨50, 300, 300⟩ ∧ queuedSlot.pal.slots[6].allowance ≤ 50 ∧ (50 : Nat) < 65536) ∧
      (let s := queuedSlot.updAlloc 6 fun a => { a with plan := none };
        (admitBlades s.pal 3000).stopped = some 6 ∧ s.pal.blockedHead ≠ some 6 ∧ s.pal.slots[6].plan = none) ∧
      (admitBlades op.pal 0).stopped = none := by decide +kernel

/-- A pass of two admissions in RAISE, and an adopted slot whose grant is to rise. -/
def raising : State :=
  ((queuedSlot.updAlloc 8 fun a => { a with standing := .standby, target := 60 }).updAlloc 15 fun a => { a with
    standing := .admitted, grant := 50, target := 100, adopted := true, plan := some ⟨50, 300, 300⟩, overdrawLevel := some 100 }).updPal
      fun p => { p with
        queue := p.queue ++ [{ slot := 8, joined := 1 }], admits := [6, 8], moduleAdmits := [3], modules := p.modules.set 3 .off }

theorem witness_NoGrantRisesUnderDeficit_raise :
    raising.pal.deficit = false ∧ (15 ∉ raising.pal.admits ∧ raising.pal.slots[15].standing = .admitted ∧
        raising.pal.slots[15].grant < raising.pal.slots[15].target ∧ raising.pal.slots[15].adopted = true ∧
        (enterRaise raising).pal.slots[15].adopted = false ∧ raising.pal.slots[15].overdrawLevel = some 100) ∧
      (6 ∈ raising.pal.admits ∧ raising.pal.slots[6].standing ≠ .admitted ∧ raising.pal.mode = .operate ∧
        raising.pal.changePending = false ∧ ∃ q ∈ raising.pal.queue, q.slot = 6) ∧
      (raising.pal.admits = [6] ++ [8] ∧ (8 : Slot) ∉ ([6] : List Slot) ∧ ∃ q ∈ raising.pal.queue, q.slot = 8) ∧
      3 ∈ raising.pal.moduleAdmits ∧ raising.pal.modules[3] = .off := by decide +kernel

theorem witness_NoGrantRisesUnderDeficit :
    (op.updPal fun p => { p with deficit := true }).pal.deficit = true ∧
      agendaDone (op.updPal fun p => { p with deficit := true }) = true ∧
      (admitted 6 fun a => { a with unsettled := true }).pal.unsettled = true ∧
      agendaDone (admitted 6 fun a => { a with unsettled := true }) = true := by decide +kernel

theorem witness_DeficitFollowsTheBudget :
    (let s := admitted 6;
        s.pal.deficit = false ∧ s.pal.available < s.pal.inForceSum + s.pal.load ∧
          s.pal.slots[6].target < s.pal.slots[6].inForce) ∧
      (let s := (admitted 6).updPal fun p => { p with deficit := true, available := p.inForceSum + p.load };
        s.pal.deficit = true ∧ s.pal.inForceSum + s.pal.load ≤ s.pal.available) := by decide +kernel

/-- The budget met, its figures formed, with DEFICIT clear; and the ports about to open. -/
theorem witness_DeficitFollowsTheBudget_step :
    (let s := { op with outs := outsOf op }.updPal fun p => { p with available := p.load };
      s.phase = .operating ∧ (stepped (queued .clockSecond s)).phase = .operating ∧ BudgetLaw (queued .clockSecond s) ∧
        step (queued .clockSecond s) = .next (stepped (queued .clockSecond s)) ∧ (s.pal.deficit = true ↔ s.pal.available < s.pal.inForceSum + s.pal.load)) ∧
      (inPhase (.formatted false)).phase = .formatted false ∧
      exec .formatDone (inPhase (.formatted false)) = .next (after .formatDone (inPhase (.formatted false))) := by
  refine ⟨⟨rfl, by decide +kernel, ?_, rfl, by decide +kernel⟩, rfl, rfl⟩
  unfold BudgetLaw; decide +kernel

theorem witness_ReductionsAreReplacedAndSettled_first :
    (let a := (admitted 6 fun a => { a with target := 199, epoch := 255 }).pal.slots[6];
        a.standing = .admitted ∧ a.unsettled = false ∧ a.target < a.grant ∧ a.target < a.inForce) ∧
      (let a := (admitted 6 fun a => { a with target := 200 }).pal.slots[6];
        a.standing = .admitted ∧ a.unsettled = false ∧ a.grant ≤ a.target) ∧
      op.pal.slots[6].standing ≠ .admitted ∧
      (let s := admitted 6 fun a => { a with unsettled := true };
        s.phase = .operating ∧ s.pal.slots[6].unsettled = true ∧ s.pal.slots[6].deadline = none ∧
          (∀ u ∈ s.waitingUpdates, u.off = 0x210 + 6 * 64 → u.kind.mask &&& 0x8FFF87FF#32 = 0#32)) ∧
      (let s := admitted 6 fun a => { a with unsettled := true, deadline := some 1 };
        Acting .pal s ∧ s.pal.slots[6].unsettled = true ∧ s.pal.slots[6].deadline = some 1) ∧
      (Acting .pal op ∧ op.pal.slots[6].deadline = none) := by decide +kernel

theorem witness_ReductionsAreReplacedAndSettled :
    (let a := (admitted 6 fun a => { a with unsettled := true, target := 100, epoch := 255, deadline := some 1 }).pal.slots[6];
        a.standing = .admitted ∧ a.unsettled = true ∧ a.target < a.grant ∧ a.deadline = some 1 ∧ 200 ≤ a.grant) ∧
      (let a := (admitted 6 fun a => { a with unsettled := true, target := 200 }).pal.slots[6];
        a.standing = .admitted ∧ a.unsettled = true ∧ a.grant ≤ a.target) ∧
      ((admitted 6).pal.slots[6].unsettled = false ∧ (admitted 6).pal.slots[6].grant < 201 ∧
        1 ≠ (admitted 6).pal.slots[6].epoch ∧ (admitted 6).phase = .operating ∧ (admitted 6).pal.slots[6].deadline = none) := by
  decide +kernel

theorem witness_PassCompletesOnceItsWordsAreWritten :
    (let s := op.updPal fun p => { p with pass := .raise };
        s.phase = .operating ∧ s.pal.pass = .raise ∧ s.pal.posting = [] ∧ s.pal.posted = []) ∧
      (let s := op.updPal fun p => { p with pass := .reduce, discarded := true, posted := [0x210] };
        s.pal.pass = .reduce ∧ s.pal.discarded = true ∧ s.pal.posting = [] ∧ s.pal.posted ≠ []) ∧
      op.pal.pass = .idle ∧ op.phase = .operating ∧
      (let s := op.updPal fun p => { p with pass := .reduce };
        s.pal.pass = .reduce ∧ s.pal.discarded = false ∧ agendaDone s = true ∧ s.pal.reduced = true ∧ s.acts .pal) ∧
      (let s := { op.updPal fun p => { p with pass := .reduce } with held := [.palTurn] };
        agendaDone s = true ∧ s.pal.reduced = true ∧ ¬s.acts .pal) ∧
      (let s := op.updPal fun p => { p with pass := .raise, passPending := true };
        s.pal.pass = .raise ∧ s.pal.posting = [] ∧ s.pal.posted = [] ∧ s.pal.passPending = true ∧ s.acts .pal) := by decide +kernel

theorem witness_PassCompletesOnceItsWordsAreWritten_posts :
    let s := (admitted 6 fun a => { a with adopted := true }).updPal fun p => { p with budget := 50 };
      (startPass s).pal.slots[6].grant < s.pal.slots[6].grant ∧ s.pal.slots[6].adopted = true ∧
        (startPass s).pal.slots[6].adopted = false := by decide +kernel

/-! ## Witnesses: cooling -/

theorem witness_FanPresenceAndSpinUps :
    (op.phase = .operating ∧ op.clc.fans[7].raw ≠ true ∧ op.clc.fans[7].presence = none ∧ op.clc.fans[7].spin = none ∧
        op.clc.fans[7].probeTimer = none) ∧
      (let s := fanIn 7 .absent fun f => { f with presence := some 1, raw := true };
        s.clc.fans[7].presence = some 1 ∧ s.clc.fans[7].raw = true ∧ s.clc.fans[7].present = false) ∧
      (let s := fanIn 7 .ok fun f => { f with presence := some 1, present := true };
        s.clc.fans[7].presence = some 1 ∧ s.clc.fans[7].raw = false ∧ s.clc.fans[7].present = true) ∧
      (let s := fanIn 7 .ok fun f => { f with presence := some 1, present := true, raw := true };
        s.clc.fans[7].presence = some 1 ∧ s.clc.fans[7].raw = s.clc.fans[7].present) ∧
      (let s := fanIn 7 .spinup fun f => { f with spin := some 1, rpm := 1200 };
        s.clc.fans[7].state = .spinup ∧ s.clc.fans[7].spin = some 1 ∧ s.clc.zones[fanZone 7].minRpm ≤ s.clc.fans[7].rpm) ∧
      (let s := fanIn 7 .spinup fun f => { f with spin := some 1, rpm := 1170 };
        s.clc.fans[7].spin = some 1 ∧ ¬s.clc.zones[fanZone 7].minRpm ≤ s.clc.fans[7].rpm) ∧
      (let s := fanIn 7 .failed fun f => { f with probeTimer := some 1 };
        s.clc.fans[7].state = .failed ∧ s.clc.fans[7].probeTimer = some 1) := by decide +kernel

theorem witness_GateEndJudgesEveryFan :
    (let s := fanIn 0 .ok fun f => { f with driven := true, lowGates := 2 };
        s.phase = .operating ∧ s.clc.fans[0].state = .ok ∧ s.clc.fans[0].driven = true ∧
          min 255 (s.clc.fans[0].tach + 39) * 30 < s.clc.zones[fanZone 0].minRpm ∧ 2 ≤ s.clc.fans[0].lowGates) ∧
      (let s := fanIn 0 .ok fun f => { f with driven := true, lowGates := 1 };
        s.clc.fans[0].driven = true ∧ s.clc.fans[0].lowGates < 2) ∧
      (let s := fanIn 0 .ok fun f => { f with driven := true };
        ¬min 255 (s.clc.fans[0].tach + 40) * 30 < s.clc.zones[fanZone 0].minRpm) ∧
      (fanIn 0 .spinup).clc.fans[0].state ≠ .ok := by decide +kernel

theorem witness_FreshnessAndControlPeriods :
    (let s := op.updThermal 15 fun t => { t with fresh := some 1, member := true };
        s.phase = .operating ∧ s.clc.slots[15].fresh = some 1 ∧ s.clc.slots[15].member = true) ∧
      op.clc.slots[15].fresh = none ∧ op.clc.zones[0].target < op.clc.zones[0].applied := by decide +kernel

/-- The curve at its boundaries, 30 and 75 °C, between them, and with a T_high at T_low; sensor counts 0 and 4; a zone not critical. -/
theorem witness_CoolingFollowsReadingsAndFans_curve :
    (∀ h ∈ [(30 : Int), 31, 74, 75],
        let t := (op.updThermal 15 fun t => { t with member := true, fresh := some 1, readings := t.readings.set 3 (some h) }).clc.slots[15];
        t.member = true ∧ t.fresh = some 1 ∧ t.highest = some h) ∧
      (let t := (op.updThermal 15 fun t => { t with member := true, sensors := some 0, fresh := some 1, readings := t.readings.set 0 (some 9) }).clc.slots[15];
        t.member = true ∧ t.highest = none ∧ t.sensors = some 0 ∧ ¬(0 : Fin 4).val < 0) ∧
      (op.clc.slots[15].member = false ∧ op.clc.slots[15].fresh = none) ∧
      (let z := { op.clc.zones[0] with tHigh := op.clc.zones[0].tLow }; z.tHigh ≤ z.tLow ∧ ¬(31 : Int) < z.tLow + 1) ∧
      (formCooling op).clc.zones[0].critical = false ∧
      (formCooling (op.updThermal 15 fun t => { t with member := true, readings := t.readings.set 0 (some 90) })).clc.zones[3].critical = true := by
  decide +kernel

/-- R135, worked example: 52 °C on the curve of the defaults is 65 %. -/
theorem test_curve :
    slotDemand op.clc.zones[0] { Thermal.reset with member := true, fresh := some 1, readings := Thermal.reset.readings.set 2 (some 52) } =
      some 65 := by decide +kernel

theorem witness_CoolingFollowsReadingsAndFans :
    getField 0x8000#32 0 16 = 0x8000 ∧
      (let s := op.updThermal 15 fun t => { t with member := true };
        s.clc.slots[15].member = true ∧ s.clc.slots[15].sensors = none ∧ getField 90#32 0 16 ≠ 0x8000 ∧
          s.clc.zones[zoneOf 15].tCrit ≤ signed16 (getField 90#32 0 16) ∧ getField 0x5A0000#32 16 16 ≠ 0x8000 ∧
          s.clc.zones[zoneOf 15].tCrit ≤ signed16 (getField 0x5A0000#32 16 16)) := by decide +kernel

/-! ## Witnesses: uplinks -/

theorem witness_ModulePowerGoodActs :
    (let s := uplinkIn 3 .powering fun u => { u with power := some 1 };
        s.phase = .operating ∧ s.ulc.bays[3].state = .powering ∧ s.ulc.bays[3].power = some 1) ∧
      (uplinkIn 3 .off).ulc.bays[3].state ≠ .powering ∧
      (∀ st : UplinkState, st = .linkDown ∨ st = .up ∨ st = .held →
        let s := uplinkIn 3 st fun u => { u with modPg := true };
        s.ulc.bays[3].state ∈ [.linkDown, .up, .held] ∧ s.ulc.bays[3].modPg = true) ∧
      (uplinkIn 3 .fault).ulc.bays[3].state ∉ [.linkDown, .up, .held] ∧ (uplinkIn 3 .up).ulc.bays[3].modPg = false ∧
      op.ulc.bays[3].power = none := by
  refine ⟨by decide +kernel, by decide +kernel, fun st h => ?_, by decide +kernel⟩
  rcases h with rfl | rfl | rfl <;> decide +kernel

theorem witness_LinkDebounceAndFlapCount :
    (op.phase = .operating ∧ op.ulc.bays[1].link = none ∧ op.ulc.bays[1].decay = none) ∧
      (let s := uplinkIn 1 .linkDown fun u => { u with link := some 1, linkUp := true };
        s.ulc.bays[1].link = some 1 ∧ s.ulc.bays[1].state = .linkDown) ∧
      (let s := uplinkIn 1 .up fun u => { u with link := some 1, flap := 24 };
        s.ulc.bays[1].link = some 1 ∧ s.ulc.bays[1].state = .up ∧ s.ulc.mode ≠ .quiesce ∧
          32 ≤ min 255 (s.ulc.bays[1].flap + 8)) ∧
      (let s := uplinkIn 1 .held fun u => { u with link := some 1 };
        s.ulc.bays[1].link = some 1 ∧ s.ulc.bays[1].state = .held) ∧
      (let s := uplinkIn 1 .up fun u => { u with decay := some 1 };
        s.ulc.bays[1].state = .up ∧ s.ulc.bays[1].decay = some 1) ∧
      (let s := uplinkIn 1 .held fun u => { u with decay := some 1, flap := 16, held := true };
        s.ulc.bays[1].state = .held ∧ s.ulc.bays[1].decay = some 1 ∧ s.ulc.bays[1].flap - 1 < 16) ∧
      (let s := uplinkIn 1 .held fun u => { u with decay := some 1, flap := 17, held := true };
        s.ulc.bays[1].state = .held ∧ s.ulc.bays[1].decay = some 1 ∧ 16 ≤ s.ulc.bays[1].flap - 1) := by decide +kernel

/-- R150: of a HELD bay the decay to 16 keeps it HELD with its timer running again. -/
theorem test_held_at_16 :
    let t := after (.flapDecayExpiry 1) (uplinkIn 1 .held fun u => { u with decay := some 1, flap := 17, held := true });
    t.ulc.bays[1].state = .held ∧ t.ulc.bays[1].flap = 16 ∧ t.ulc.bays[1].held = true ∧ t.ulc.bays[1].decay = some 10000 := by
  decide +kernel

theorem witness_SettleTimerAttachesOrReports :
    (let s := op.updPlacement 5 fun p => { p with settle := some { detach := false, left := 1 }, uplink := some 2 };
        s.phase = .operating ∧ s.ulc.slots[5].settle = some { detach := false, left := 1 } ∧ s.ulc.slots[5].uplink = some 2 ∧
          Rested s) ∧
      (op.updPlacement 5 fun p => { p with settle := some { detach := true, left := 1 } }).ulc.slots[5].settle =
        some { detach := true, left := 1 } ∧
      op.ulc.slots[5].settle = none ∧
      (∀ a ∈ [Attach.detached, .settling, .attached],
        (op.updPlacement 5 fun p => { p with attach := a, uplink := some 2 }).ulc.slots[5].attach = a ∧
          (op.updPlacement 5 fun p => { p with attach := a, uplink := some 2 }).ulc.slots[5].uplink = some 2) := by
  unfold Rested; decide +kernel

/-- Slots 0 and 1 on uplink A, which fills it, and slot 2 waiting. -/
def placed : State :=
  let member := fun (p : Placement) => { p with uplink := some 0, counted := 4, weight := some 4, attach := .attached, inRun := true }
  let s := ((uplinkIn 0 .up fun u => { u with members := [0, 1], link := some 1 }).updPlacement 0 member).updPlacement 1 member
  { s with ulc := { s.ulc with wait := [2] } }

theorem witness_UplinkEventsKeepMembership :
    MembershipLaw placed ∧ placed.ulc.bays[0].state = .up ∧ placed.ulc.bays[0].link = some 1 ∧
      0 ∈ placed.ulc.bays[0].members ∧ placed.ulc.slots[0].prefs ≠ [] ∧
      step (queued (.linkDownDebounceExpiry 0) placed) = .next (stepped (queued (.linkDownDebounceExpiry 0) placed)) := by
  refine ⟨?_, by decide +kernel, by decide +kernel, by decide +kernel, by decide +kernel, rfl⟩
  unfold MembershipLaw; decide +kernel

/-- The ULC at a mode, uplink A up with no member, slot 3 in RUN or about to be, slot 2 waiting for A. -/
def roomy (m : Mode) : State :=
  let s := uplinkIn 0 .up fun u => { u with link := some 1 }
  { s with ulc := { s.ulc with mode := m, wait := [2] } }

theorem witness_UplinkEventsKeepMembership_places :
    (∀ m : Mode, (roomy m).ulc.slots[3].uplink = none ∧ 3 ∉ (roomy m).ulc.wait ∧ (roomy m).ulc.slots[3].prefs ≠ [] ∧
        (roomy m).ulc.mode = m ∧ 2 ∈ (roomy m).ulc.wait ∧ (roomy m).ulc.slots[2].uplink = none ∧
        ((roomy m).ulc.slots[3].prefs.find? fun b => (roomy m).ulc.takes b 3) = some 0) ∧
      (op.ulc.slots[3].prefs.find? fun b => op.ulc.takes b 3) = none ∧
      ((roomy .operate).updPlacement 3 fun p => { p with prefs := [] }).ulc.slots[3].prefs = [] ∧
      (placed.ulc.slots[0].uplink = some 0 ∧ placed.ulc.mode ≠ .quiesce) := by
  refine ⟨fun m => ?_, by decide +kernel⟩
  cases m <;> decide +kernel

theorem witness_UplinkEventsKeepMembership_modes :
    (let s := uplinkIn 3 .linkDown fun u => { u with link := some 1 };
        s.ulc.bays[3].link ≠ none ∧ s.ulc.bays[3].state = .linkDown ∧ s.ulc.bays[3].held = false) ∧
      (∀ f : Bool, let s : State := { roomy .operate with ulc := { (roomy .operate).ulc with failback := f } };
        s.ulc.mode = .operate ∧ s.ulc.failback = f) ∧
      ((roomy .quiesce).ulc.mode = .quiesce ∧ (roomy .quiesce).ulc.bays[0].state = .up ∧ (roomy .quiesce).ulc.bays[0].members = [] ∧
        (roomy .quiesce).ulc.bays[0].link ≠ none) ∧
      (let s := joinList 0 15 (roomy .quiesce);
        s.ulc.mode = .quiesce ∧ s.ulc.slots[15].uplink = some 0 ∧ s.ulc.bays[0].members = [15] ∧ s.ulc.bays[0].state = .up) := by
  decide +kernel

/-! ## Witnesses: modes and events -/

theorem witness_ClockBlinkCounterAndTimersAdvance :
    Acting (.word 0x104) op ∧ op.ssq.blink < 2000 ∧ Rested op ∧ op.wra.queue = [] ∧ op.wra.waiting = [] ∧ op.held = [] ∧ op.pending = [] ∧
      (let c : Clock := ⟨65535, 23, 59, 59⟩; c.days < 65536 ∧ c.hours < 24 ∧ c.minutes < 60 ∧ c.seconds < 60) ∧
      ((op.updMeu fun m => { m with sub := 998 }).meu.sub < 999 ∧ (op.updMeu fun m => { m with sub := 999 }).meu.sub = 999) ∧
      (({ op with clc := { op.clc with gate := 998 } } : State).clc.gate < 999 ∧
        ({ op with clc := { op.clc with gate := 999 } } : State).clc.gate = 999) := by
  unfold Rested; decide +kernel

/-- A ring with 62 records between its tail and write position, its first one performed, and one tail performed. -/
def ringFull : State := op.updMeu fun m =>
  { m with head := 1, tail := 1, writePos := 63, records := List.replicate 62 3, tailDone := [5] }

theorem witness_RecordsReachTheRingInOrder :
    ringFull.phase = .operating ∧ recordPerformed ringFull = true ∧ recordPerformed op = false ∧
      ringFull.acts (.word 0x1D2) ∧ op.acts (.word 0x1D2) ∧ ringFull.meu.tailDone = [5] ∧ op.meu.tailDone = [] ∧ RingLaw ringFull ∧
      (ringFull.meu.writePos + 1) % 64 ≠ ringFull.meu.head ∧
      (let s := ringFull.updMeu fun m => { m with writePos := 0, records := List.replicate 63 3 };
        RingLaw s ∧ (s.meu.writePos + 1) % 64 = s.meu.head ∧ s.acts (.word 0x1D3) ∧
          ({ s with held := [.meuOverflow 3] } : State).later = none ∧
          ({ s with held := [.meuOverflow 3] } : State).holds (.word 0x1D3) = true) := by
  unfold RingLaw; decide +kernel

/-- The ring at its fullest, the head as the image has it. -/
def ringStored : State := { ringFull with mem := [(0x7C014, 1#32)] }

theorem witness_RecordsReachTheRingInOrder_step :
    memWf (queued .eventRecordPerformed ringStored).mem = true ∧ BufferLaw (queued .eventRecordPerformed ringStored) ∧
      HeadLaw (queued .eventRecordPerformed ringStored) ∧ RingLaw (queued .eventRecordPerformed ringStored) ∧
      (queued .eventRecordPerformed ringStored).phase = .operating ∧
      (stepped (queued .eventRecordPerformed ringStored)).phase = .operating ∧
      step (queued .eventRecordPerformed ringStored) = .next (stepped (queued .eventRecordPerformed ringStored)) := by
  refine ⟨by decide +kernel, ?_, ?_, ?_, by decide +kernel, by decide +kernel, rfl⟩
  · unfold BufferLaw; decide +kernel
  · unfold HeadLaw; decide +kernel
  · unfold RingLaw; decide +kernel

/-! ## Steps: resets and the memory path

The expected values of the steps below are worked out from the rules named, or stand in the manual's worked examples. -/

/-- R19, R20: FORMAT's defaults: margin 100 W, base load 100 W, group enables 0xFF, and the marker last. -/
theorem test_format_defaults :
    ((formatWrites 1#32).filter fun u => u.off == 5 || u.off == 6 || u.off == 0x13) =
        [{ off := 5, kind := .whole 100#32 }, { off := 6, kind := .whole 100#32 }, { off := 0x13, kind := .whole 0xFF#32 }] ∧
      (formatWrites 1#32).getLast? = some { off := 0, kind := .whole 0xA4620C1E#32 } := by decide +kernel

/-- R175: a pin reset keeps rail and throttle as they were driven. -/
theorem test_resetAssert_holds_rails :
    (after .resetAssert { op with outs := { op.outs with mainEn := op.outs.mainEn.set 4 true } }).outs.mainEn[4] = true := by
  decide +kernel

/-- R17: without the marker the header read leads to FORMAT, with the count one more. -/
theorem test_header_without_marker :
    (after .headerReadAnswer { headerAnswered 0#32 true with mem := [(0x7C001, 7#32)] }).phase = .formatting true 64 8#32 := by
  decide +kernel

/-- R35: the eighth row in debt is refreshed before a waiting write-back. -/
theorem test_refresh_before_writeback :
    (after .dramAccessPerformed fullQueue).drc.row = 0 ∧ (after .dramAccessPerformed fullQueue).drc.debt = 7 ∧
      (after .dramAccessPerformed fullQueue).wra.queue.length = 64 := by decide +kernel

/-- R38: both waiting updates of one word enter as one entry, and the third goes on waiting. -/
theorem test_waiting_updates_join :
    (after .writebackUpdateTaken updateWaits).wra.queue.getLast? = some { off := 70, kind := .whole 3#32 } ∧
      (after .writebackUpdateTaken updateWaits).wra.waiting = [{ off := 71, kind := .whole 4#32 }] := by decide +kernel

/-- R16, worked example of chapter 1: the acknowledgement of 40 finds 41 in the field. -/
theorem test_acknowledgement_crossed_by_recommit :
    (UpdateKind.ack 40 1 false).perform (putField 0 41 ||| putField 16 5) = putField 0 41 ||| putField 16 6 := by decide +kernel

/-- R23: a processor read of general store answers the word, with READY. -/
theorem test_processor_read :
    (after (.plainWrite (.processor (.read 0#19))) busyMemory).pmp.dataOut = some 1#32 ∧
      (after (.plainWrite (.processor (.read 0#19))) busyMemory).pmp.ready = true := by decide +kernel

/-- R23: READY ends with the strobe. -/
theorem test_strobe_release :
    (after .strobeRelease (after (.plainWrite (.processor (.read 0#19))) busyMemory)).pmp = Pmp.reset := by decide +kernel

/-! ## Steps: slot links (worked example 2.9) -/

/-- Slot 3's link with a full buffer and LEC 40. -/
def crowded : State := op.updLink 2 fun l =>
  { l with lec := 40, buffer := List.replicate 4 { off := fruOff 2 0, data := 1#32, mask := none } }

/-- A word at FRU word 2 is dropped with an OVERRUN; a further word of the frame counts no second error. -/
theorem test_store_overrun :
    (after (.store 2 0x042#16 5#32) crowded).links[2].lec = 48 ∧
      (after (.store 2 0x042#16 6#32) (after (.store 2 0x042#16 5#32) crowded)).links[2].lec = 48 := by decide +kernel

/-- R4: a blade's STORE to record word 63 is discarded in silence. -/
theorem test_store_unassigned :
    (after (.store 2 0x03F#16 5#32) storeLink).links[2].lec = 0 ∧ (after (.store 2 0x03F#16 5#32) storeLink).links[2].buffer = [] := by
  decide +kernel

/-- A MERGE to the chassis summary is a WINDOW_VIOLATION. -/
theorem test_merge_violation :
    (after (.merge 2 0x085#16 0xFF#32 1#32) (op.updLink 2 fun l => { l with lec := 48 })).links[2].lec = 56 := by decide +kernel

/-- An error-free frame takes one off the count. -/
theorem test_frame_end :
    (after (.frameEnd 2 []) (linkIn 2 (frameOf .fetch))).links[2].lec = 3 := by decide +kernel

/-- R31: the count that reaches 128 makes the link RESTRICTED. -/
theorem test_unknown_command :
    (after (.unknownCommand 9 0x55#8) (op.updLink 9 fun l => { l with lec := 120 })).links[9].state = .restricted := by
  decide +kernel

/-- R26: a PEEK asks for record word 16 of the slot. -/
theorem test_peek :
    (after (.peek 15 0) op).links[15].reads = [{ off := 0x5D0, live := true }] := by decide +kernel

/-- R26, R3: a FETCH of the mirror's first word asks for image word 0x0100. -/
theorem test_fetch_mirror :
    (after (.fetch 4 0x080#16 0) op).links[4].reads = [{ off := 0x100, live := true }] := by decide +kernel

/-! ## Steps: the processor's writes -/

/-- R11: a margin above its range is stored at 1,000 W, and the reserved bits as 0. -/
theorem test_margin_clamped : (after (.margin 0xFFFF07D0#32) op).image 0x05 = 1000#32 := by decide +kernel

/-- R12: an undefined policy code keeps the stored one. -/
theorem test_policy_code_kept :
    let t := after (.redundancyPolicy 3#32) { op with mem := [(0x7C004, 1#32)] };
    t.image 0x04 = 1#32 ∧ t.psm.policy = .nPlusOne := by decide +kernel

/-- R13: 1, 2, 2, 3 is cut at the repeat. -/
theorem test_preference_list :
    (after (.uplinkPreferenceList 0 0x03020201#32) op).image 0x42 = 0x00000201#32 ∧
      (after (.uplinkPreferenceList 0 0x03020201#32) op).ulc.slots[0].prefs = [0, 1] := by decide +kernel

/-- R169: a load takes the load copies at a full second. -/
theorem test_clock_load :
    (after (.clockLoad 1#32) (op.updMeu fun m => { m with sub := 500, load := ⟨3, 4, 5, 6⟩ })).meu.clock = ⟨3, 4, 5, 6⟩ := by
  decide +kernel

/-- R32: a link clear brings an ISOLATED link back. -/
theorem test_link_clear :
    (after (.linkClear 15 1#32) fullLink).links[15].state = .normal ∧ (after (.linkClear 15 0#32) fullLink).links[15].lec = 255 := by
  decide +kernel

/-- R58: a fault clear with bit 0 clear does nothing more. -/
theorem test_fault_clear_bit :
    (after (.faultClear 3 2#32) (slotIn 3 .fault)).ssq.slots[3].state = .fault := by decide +kernel

/-- R65, R47: LOCATE makes the attention LED FAST. -/
theorem test_locate :
    (after (.locate 7 1#32) op).ssq.slots[7].attLed = .fast := by decide +kernel

/-- R126: FORCED_THROTTLE is bit 8 of the word. -/
theorem test_forced_throttle :
    (after (.forcedThrottle 6 0x100#32) op).pal.slots[6].forced = true ∧ (after (.forcedThrottle 6 1#32) op).pal.slots[6].forced = false := by decide +kernel

/-- R17: a write to the marker word stores 0. -/
theorem test_marker_write :
    (after (.imageMarkerWrite 0xA4620C1E#32) { op with mem := [(0x7C000, 0xA4620C1E#32)] }).mem = [] := by decide +kernel

/-- R171, worked example 9.5: head 30 is stored, and afterwards head 12 is stored as the tail 9. -/
theorem test_ring_head :
    (let s := { op with mem := [(0x7C014, 10#32)] }.updMeu fun m => { m with head := 10, tail := 9, writePos := 9 };
      (after (.eventRingHead 30#32) s).image 0x14 = 30#32) ∧
    (let s := { op with mem := [(0x7C014, 30#32)] }.updMeu fun m => { m with head := 30, tail := 9, writePos := 9 };
      (after (.eventRingHead 12#32) s).image 0x14 = 9#32) := by decide +kernel

/-- R15, R172, worked example 9.5: of POWER, SLOT and SYSTEM (bits 1, 3 and 7) the clear word 0xFD leaves SLOT and SYSTEM set; their
groups are disabled, and ATTN_N is deasserted. -/
theorem test_group_flags_clear :
    let s := { op with mem := [(0x7C1D0, 0x8A#32)] }.updMeu fun m => { m with flags := 0x8A#8, enables := 0x77#8 };
    (after (.groupFlagsClear 0xFD#32) s).meu.flags = 0x88#8 ∧ (after (.groupFlagsClear 0xFD#32) s).outs.attn = false := by
  decide +kernel

/-! ## Steps: slot sequencing (worked example 3.15) -/

/-- The debounce of slot 9 expires with the blade seated. -/
theorem test_insertion :
    let t := after (.presenceDebounceExpiry 8) (slotIn 8 .detecting fun q => { q with raw := .seated, debounce := some 1 });
    t.ssq.slots[8].state = .standbyUp ∧ t.ssq.slots[8].seq = some { wait := .standbyTimeout, left := 500 } ∧
      t.outs.sbyEn[8] = true ∧ t.outs.mainEn[8] = false := by decide +kernel

/-- SBY_PG good stops the timeout and starts T_up. -/
theorem test_sby_pg_good :
    (after (.sbyPgGood 8) (waiting 8 .standbyUp .standbyTimeout)).ssq.slots[8].seq = some { wait := .standbyStep, left := 30 } := by
  decide +kernel

/-- R57: MAIN_PG lost in RUN turns both rails off with reason MAIN_PG. -/
theorem test_main_pg_lost :
    let t := after (.mainPgLost 8) (slotIn 8 .run fun q => { q with mainPg := true, sbyPg := true });
    t.ssq.slots[8].state = .fault ∧ t.ssq.slots[8].reason = .mainPg ∧ t.outs.sbyEn[8] = false ∧ t.outs.mainEn[8] = false := by
  decide +kernel

/-- R42: a latch opened in RUN is an extraction. -/
theorem test_extraction :
    (after (.presenceDebounceExpiry 8)
      (slotIn 8 .run fun q => { q with raw := .unlatched, debounced := .seated, debounce := some 1 })).ssq.slots[8].downCause =
        some .extraction := by decide +kernel

/-! ## Steps: inventory (worked examples 4.8 and 4.9) -/

/-- A write to FRU word 40 while 16 words are verified: REJECTED with TORN, the entry and its profile as they were. -/
theorem test_torn :
    let s := (bladeIn 3 .valid).setVerification 3 (some { length := 16, serial := 1, words := [1#32], sum := 1#32 });
    let t := after (.fruAreaWrite 3 40 9#32) s;
    (t.bladeEntry 3).state = .valid ∧ (t.bladeEntry 3).verdict = .rejected ∧ (t.bladeEntry 3).reason = .torn := by decide +kernel

/-- Bay 3 is not acknowledged while bay B waits: bay 3 is PENDING with its retry at 100 ms, and B is first. -/
theorem test_reader_nack :
    let s := readingBay 2 none 1;
    let t := after .readerNack { s with inv := { s.inv with queue := [7] } };
    t.inv.queue = [7] ∧ t.inv.bays[2].retry = some 100 ∧ (t.inv.entries[bayEntry 2]).state = .pending := by decide +kernel

/-- R81: a byte offset that is not acknowledged is followed by the STOP; the second of word 0's bytes by its answer and the STOP. -/
theorem test_reader_cut :
    endAfter 3 { bay := 2, word0 := none } (readFrom 0x00#8) = [.start, .address 0x50#7 false, .byte 0x00#8, .stop] ∧
      endAfter 7 { bay := 2, word0 := none } (readFrom 0x00#8) = readFrom 0x00#8 ++ [.ack, .ack, .stop] := by decide

/-! ## Steps: supplies (worked example 5.7) -/

/-- The four supplies of the example, P_avail 3,100 W under N+N. -/
def grids : State :=
  let on := fun (b : PsuBay) (w : Nat) (s : State) => s.updPsu b fun p => { p with state := .online, rated := w, capacity := w, pwrOk := true }
  let s := on 4 1600 (on 3 1600 (on 1 2000 (on 0 2000 op)))
  { s with psm := { s.psm with policy := .nPlusN, rawAvailable := 3200, available := 3100 } }

/-- Bay 4 is lost: grid B gives 1,600 W, and 1,500 W are available. -/
theorem test_supply_lost :
    let t := after (.pwrOkLost 3) grids;
    t.psm.rawAvailable = 1600 ∧ t.psm.available = 1500 ∧ t.psm.lost = false ∧ t.psm.bays[3].restart = some 10000 := by decide +kernel

/-- With bay 4 faulted, the loss of bay 5 leaves grid B without a supply: LOST, and the sum of all is counted. -/
theorem test_grid_lost :
    let s := grids.updPsu 0 fun p => { p with faults := 96, band := .degraded, capacity := 1500 };
    let t := after (.pwrOkLost 4) (s.updPsu 3 fun p => { p with state := .faulted, faults := 32, capacity := 0, pwrOk := false });
    t.psm.rawAvailable = 3500 ∧ t.psm.lost = true ∧ t.psm.available = 3400 ∧ t.pal.available = 3400 := by decide +kernel

/-- Bay 1 at a count of 88: the assertion of ALERT makes it 96, and three quarters of 2,000 W are counted. -/
theorem test_supply_degraded :
    let t := after (.alertDebounceExpiry 0) (grids.updPsu 0 fun p => { p with faults := 88, alertRaw := true, alertTimer := some 1 });
    t.psm.bays[0].faults = 96 ∧ t.psm.bays[0].band = .degraded ∧ t.psm.bays[0].capacity = 1500 ∧ t.psm.available = 3100 := by
  decide +kernel

/-! ## Steps: power allocation (worked example 6.9) -/

/-- Eight slots in RUN and one in READY, as the example's table has them; the base load is written last. -/
def loaded : State :=
  let on := fun (i : Slot) (cls f cap r : Nat) (s : State) => s.updAlloc i fun a =>
    { a with
      state := .run, standing := .admitted, plan := some ⟨f, cap, cap⟩, request := r, cls := cls, grant := f, inForce := f
      target := f, sequence := some i.val }
  let s := on 3 1 200 600 500 (on 2 1 200 600 550 (on 1 0 250 700 600 (on 0 0 250 700 600 op)))
  let s := on 7 2 150 500 500 (on 6 2 150 500 400 (on 5 1 200 600 600 (on 4 1 200 600 450 s)))
  let s := s.updAlloc 8 fun a => { a with state := .ready, standing := .standby, allowance := 20, inForce := 20 }
  let s := forEach [0, 1] (fun b s => s.updUplink b fun u => { u with state := .up, figures := ⟨8, 4, 90⟩ }) s
  s.updPal fun p => { p with available := 3800, reservation := 70, modules := (p.modules.set 0 .up).set 1 .up, mode := .operate }

/-- The base load of 150 W brings the pass on whose targets the example gives. -/
theorem test_budget_of_a_loaded_chassis :
    let t := after (.baseLoad 150#32) loaded;
    ([0, 1, 2, 3, 4, 5, 6, 7, 8].map fun (i : Slot) => t.pal.slots[i].target) = [600, 600, 490, 445, 405, 530, 150, 150, 20] ∧
      t.pal.budget = 3400 ∧ t.pal.headroom = 10 ∧ t.pal.stranded = 10 := by decide +kernel

/-! ## Steps: cooling (worked example 7.8) -/

/-- Zone 2 as the example begins, every other zone at 30 %. -/
def hotZone : State :=
  let s := forEach allFans (fun p s => s.updFan p fun f => { f with state := .ok, raw := true, present := true, driven := true, drive := 30 }) op
  let s := forEach allZones (fun z s => s.updZone z fun x => { x with target := 30, applied := 30 }) s
  let s := forEach [2, 3] (fun p s => s.updFan p fun f => { f with drive := 65 }) s
  let s := s.updZone 1 fun x => { x with target := 65, applied := 65, modulePowered := true }
  let s := s.updThermal 4 fun t => { t with member := true, sensors := some 2, demand := some 65, fresh := some 9000 }
  s.updThermal 5 fun t => { t with
    member := true, sensors := some 2, readings := ⟨#[some 40, some 44, none, none], rfl⟩, demand := some 52, fresh := some 6600 }

/-- At 0.4 s slot 5 writes 61 and 50 °C. -/
theorem test_thermal_reading :
    let t := after (.thermalReading 4 .first (putField 0 61 ||| putField 16 50)) hotZone;
    t.clc.zones[1].target = 79 ∧ t.clc.zones[1].applied = 79 ∧ t.clc.fans[2].drive = 79 ∧ t.clc.reservation = 60 := by decide +kernel

/-- At 3 s fan 2B's third low gate, 870 rpm. -/
theorem test_fan_fails :
    let s := (hotZone.updZone 1 fun x => { x with target := 79, applied := 79 }).updThermal 4 fun t => { t with
      readings := ⟨#[some 61, some 50, none, none], rfl⟩, demand := some 79 };
    let t := after (.tachGateEnd ⟨#[100, 100, 100, 29, 100, 100, 100, 100], rfl⟩) (s.updFan 3 fun f => { f with lowGates := 2 });
    t.clc.fans[3].state = .failed ∧ t.clc.fans[2].drive = 100 ∧ t.clc.zones[1].factor = 60 ∧ t.clc.zones[1].applied = 79 ∧
      t.clc.reservation = 100 := by decide +kernel

/-- At 41 s the applied duty comes down by the slew. -/
theorem test_control_period :
    let s := (hotZone.updZone 1 fun x => { x with target := 79, applied := 100 }).updThermal 4 fun t => { t with
      readings := ⟨#[some 61, some 50, none, none], rfl⟩, demand := some 79 };
    (after .controlPeriod s).clc.zones[1].applied = 95 ∧ (after .controlPeriod s).clc.reservation = 90 := by decide +kernel

/-! ## Steps: uplinks (worked example 8.12) -/

/-- Uplinks A and B with their members before A's link drops. -/
def twoUplinks : State :=
  let on := fun (i : Slot) (b : UplinkBay) (w : Nat) (prefs : List UplinkBay) (s : State) =>
    (s.updPlacement i fun p =>
      { p with attach := .attached, uplink := some b, counted := w, weight := some w, prefs := prefs, inRun := true }).updUplink b fun u =>
        { u with members := u.members ++ [i] }
  let up := fun (u : Uplink) => { u with state := .up, figures := ⟨8, 4, 90⟩, linkUp := true, modPg := true, decay := some 10000 }
  let s := (op.updUplink 0 up).updUplink 1 up
  let s := on 2 0 2 [0, 1] (on 1 0 2 [0, 1] (on 0 0 2 [0, 1] s))
  let s := on 6 1 1 [1] (on 5 1 2 [1, 0] (on 4 1 2 [1, 0] s))
  let s := s.updUplink 0 fun u => { u with flap := 24, linkUp := false, link := some 1 }
  { s with ulc := { s.ulc with failback := true, mode := .operate } }

/-- At 50 ms the down debounce expires: slot 1 finds room on B, slots 2 and 3 wait. -/
theorem test_failover :
    let t := after (.linkDownDebounceExpiry 0) twoUplinks;
    t.ulc.bays[0].state = .linkDown ∧ t.ulc.bays[0].flap = 32 ∧ t.ulc.bays[0].held = true ∧ t.ulc.bays[0].members = [] ∧
      t.ulc.bays[1].members = [4, 5, 6, 0] ∧ t.ulc.units 1 = 7 ∧ t.ulc.wait = [1, 2] ∧
      t.ulc.slots[0].settle = some { detach := false, left := 20 } := by decide +kernel

/-- The state at the 17th decay expiry: A HELD at 16, slots 5, 7, 1 and 2 on B, slot 3 waiting. -/
def heldUplink : State :=
  let s := twoUplinks.updUplink 0 fun u => { u with state := .held, flap := 16, held := true, members := [], linkUp := true, link := none }
  let s := s.updUplink 1 fun u => { u with members := [4, 6, 0, 1] }
  let s := forEach [0, 1] (fun i s => s.updPlacement i fun p => { p with uplink := some 1 }) s
  let s := s.updPlacement 2 fun p => { p with attach := .detached, uplink := none, counted := 0 }
  let s := s.updPlacement 5 fun p => { p with attach := .detached, uplink := none, counted := 0, inRun := false }
  { s with ulc := { s.ulc with wait := [2] } }

/-- At 175,500 ms A comes UP: slot 3 joins it from the wait list, and slots 1 and 2 return to it. -/
theorem test_failback :
    let t := after (.flapDecayExpiry 0) heldUplink;
    t.ulc.bays[0].state = .up ∧ t.ulc.bays[0].flap = 15 ∧ t.ulc.bays[0].members = [2, 0, 1] ∧ t.ulc.bays[1].members = [4, 6] ∧
      t.ulc.wait = [] := by decide +kernel

/-! ## Steps: modes and events -/

/-- R169: the clock carries through the end of a day. -/
theorem test_clock_second :
    (after .clockSecond (op.updMeu fun m => { m with clock := ⟨2, 23, 59, 59⟩ })).meu.clock = ⟨3, 0, 0, 0⟩ := by decide +kernel

/-- R170: the tail advances past a performed record, and its group waits for the tail to be performed. -/
theorem test_record_performed :
    (after .eventRecordPerformed ringFull).meu.tail = 2 ∧ (after .eventRecordPerformed ringFull).meu.tailPosted = [3] := by
  decide +kernel

/-- R170, R15: with the tail performed, the flag of the record's group is posted. -/
theorem test_tail_performed :
    { off := 0x1D0, kind := .flags 0x20#32 } ∈ (after .ringTailPerformed ringFull).wra.queue := by decide +kernel

/-- R170, worked example 9.5: an event raised at a full ring is lost and counted. -/
theorem test_full_ring :
    (raise .slotRemoved (.slot 3) 0#32 (op.updMeu fun m => { m with head := 10, writePos := 9, overflow := 4 })).meu.overflow = 5 := by
  decide +kernel

/-- R123, R117, R103: a pass that clears an adopted marker posts word 25 of the record, and is not done while it stands. -/
theorem test_cleared_marker_holds_the_pass :
    let s := (admitted 6 fun a => { a with adopted := true }).updPal fun p => { p with budget := 50 };
      let t := flush s (startPass s);
      0x399 ∈ t.pal.posted ∧ passDone (t.updPal fun p => { p with pass := .raise, posted := [0x399] }) = false := by decide +kernel

/-- R13, R179: a listed slot with an empty preference list joins no uplink at adoption. -/
theorem test_adoption_leaves_empty_list_detached :
    let s := (slotIn 6 .run).updPlacement 6 fun p => { p with prefs := [] };
      let t := adoptMember 6 0 (s.updUplink 0 fun u => { u with state := .up, figures := ⟨8, 4, 60⟩ });
      t.ulc.slots[6].attach = .detached ∧ t.ulc.slots[6].uplink = none ∧ t.ulc.bays[0].members = [] := by decide +kernel

end Sys2Proof.Tests
end

/-! The DRAM and the processor's port stand through every operation of the blocks. An event that ends whole leaves them alone by the law of
the shell (`shell_conclude`); this part says the same of an event that is carried out part by part (R38), whose operations may change the
rest of the shell. -/

namespace Sys2Proof.Machine

/-- What a processor write is judged by: the DRAM and the processor's port. -/
def State.bus (s : State) : List (Nat × Word) × Pmp := (s.mem, s.pmp)

/-! ## Updates

Each lemma speaks of the bus of the shell, so that the lemmas about the shell rewrite inside it. -/

section updates

variable (s : State)

@[simp] theorem bus_updSlot (i : Slot) (f : SlotSeq → SlotSeq) : (s.updSlot i f).shell.bus = s.shell.bus := rfl
@[simp] theorem bus_updLink (i : Slot) (f : Link → Link) : (s.updLink i f).shell.bus = s.shell.bus := rfl
@[simp] theorem bus_updBay (b : ModuleBay) (f : ModuleSense → ModuleSense) : (s.updBay b f).shell.bus = s.shell.bus := rfl
@[simp] theorem bus_updPsu (b : PsuBay) (f : Psu → Psu) : (s.updPsu b f).shell.bus = s.shell.bus := rfl
@[simp] theorem bus_updAlloc (i : Slot) (f : Alloc → Alloc) : (s.updAlloc i f).shell.bus = s.shell.bus := rfl
@[simp] theorem bus_updMeu (f : Meu → Meu) : (s.updMeu f).shell.bus = s.shell.bus := rfl
@[simp] theorem bus_updPal (f : Pal → Pal) : (s.updPal f).shell.bus = s.shell.bus := rfl
@[simp] theorem bus_inv (v : Inv) : (State.shell { s with inv := v }).bus = s.shell.bus := rfl
@[simp] theorem bus_psm (p : Psm) : (State.shell { s with psm := p }).bus = s.shell.bus := rfl
@[simp] theorem bus_send (l : List LineSymbol) : (s.send l).shell.bus = s.shell.bus := rfl
@[simp] theorem bus_requestRead (r : ReadRequest) : (s.requestRead r).shell.bus = s.shell.bus := rfl

end updates

/-- What an operation leaves of the bus, it leaves too where it waits or is put off. -/
theorem bus_whenFree (m : Held) (f : State → State) (h : ∀ s, (f s).shell.bus = s.shell.bus) (s : State) :
    (whenFree m f s).shell.bus = s.shell.bus :=
  whenFree_keeps (fun s => s.shell.bus) m f h (fun _ _ => rfl) (fun _ _ => rfl) s

theorem bus_onlyIf (c : Bool) (f : State → State) (h : ∀ s, (f s).shell.bus = s.shell.bus) (s : State) :
    (onlyIf c f s).shell.bus = s.shell.bus :=
  onlyIf_keeps (fun s => s.shell.bus) c f h s

theorem bus_forEach {α : Type} (l : List α) (f : α → State → State) (h : ∀ a s, (f a s).shell.bus = s.shell.bus) (s : State) :
    (forEach l f s).shell.bus = s.shell.bus :=
  forEach_keeps (fun s => s.shell.bus) l f h s

/-- What an operation leaves of the bus, it leaves too where it stands under a condition. -/
theorem bus_guarded {p : Prop} [Decidable p] {s t : State} (h : t.shell.bus = s.shell.bus) :
    (if p then t else s).shell.bus = s.shell.bus := by
  split
  · exact h
  · rfl

/-! ## The inventory (chapter 4) -/

@[simp] theorem bus_raiseIdentity (x : Subject) (notes : BitVec 5) (pended : Bool) (r : Ruling) (s : State) :
    (raiseIdentity x notes pended r s).shell.bus = s.shell.bus := by
  cases r <;> simp [raiseIdentity]

@[simp] theorem bus_bladeVerdict (i : Slot) (n : Nat) (r : Ruling) (s : State) :
    (bladeVerdict i n r s).shell.bus = s.shell.bus := by
  simp [bladeVerdict, bus_onlyIf _ _ fun s => congrArg State.bus (shell_handProfile i s)]

@[simp] theorem bus_takeCommit (i : Slot) (n : Nat) (s : State) : (takeCommit i n s).shell.bus = s.shell.bus := by
  unfold takeCommit
  dsimp only
  split_ifs <;> simp

@[simp] theorem bus_takeVerifyAnswer (i : Slot) (serial : Nat) (w : Word) (s : State) :
    (takeVerifyAnswer i serial w s).shell.bus = s.shell.bus := by
  unfold takeVerifyAnswer
  dsimp only
  repeat' split
  all_goals simp

@[simp] theorem bus_takeFruWrite (i : Slot) (s : State) : (takeFruWrite i s).shell.bus = s.shell.bus := by
  unfold takeFruWrite
  split <;> simp

@[simp] theorem bus_readModulePresence (b : ModuleBay) (level : Bool) (s : State) :
    (readModulePresence b level s).shell.bus = s.shell.bus := by
  unfold readModulePresence
  split <;> simp

@[simp] theorem bus_retryExpiry (b : ModuleBay) (s : State) : (retryExpiry b s).shell.bus = s.shell.bus := by
  unfold retryExpiry
  split <;> rfl

@[simp] theorem bus_handPresence (b : ModuleBay) (present : Bool) (s : State) :
    (handPresence b present s).shell.bus = s.shell.bus := by
  unfold handPresence
  split <;> simp

@[simp] theorem bus_abandonRead (b : ModuleBay) (s : State) : (abandonRead b s).shell.bus = s.shell.bus := by
  unfold abandonRead
  split <;> rfl

@[simp] theorem bus_moduleLeaves (b : ModuleBay) (s : State) : (moduleLeaves b s).shell.bus = s.shell.bus := by
  simp [moduleLeaves, emptyEntry]

@[simp] theorem bus_modulePresenceExpiry (b : ModuleBay) (s : State) :
    (modulePresenceExpiry b s).shell.bus = s.shell.bus := by
  unfold modulePresenceExpiry moduleArrives
  dsimp only
  split_ifs <;> simp

@[simp] theorem bus_handModuleVerdict (b : ModuleBay) (valid : Bool) (s : State) :
    (handModuleVerdict b valid s).shell.bus = s.shell.bus := by
  unfold handModuleVerdict
  dsimp only
  repeat' split
  all_goals simp

@[simp] theorem bus_moduleVerdict (b : ModuleBay) (r : Ruling) (s : State) : (moduleVerdict b r s).shell.bus = s.shell.bus := by
  simp [moduleVerdict]

@[simp] theorem bus_readerStart (s : State) : (readerStart s).shell.bus = s.shell.bus := by
  unfold readerStart
  split <;> rfl

@[simp] theorem bus_readerWord0 (w : Word) (s : State) : (readerWord0 w s).shell.bus = s.shell.bus := by
  unfold readerWord0
  dsimp only
  repeat' split
  all_goals simp

@[simp] theorem bus_readerRecord (words : List Word) (s : State) : (readerRecord words s).shell.bus = s.shell.bus := by
  unfold readerRecord
  dsimp only
  repeat' split
  all_goals simp

@[simp] theorem bus_readerFail (n : Nat) (s : State) : (readerFail n s).shell.bus = s.shell.bus := by
  have hcut : ∀ r, (cutRead n r s).shell.bus = s.shell.bus := fun _ => rfl
  unfold readerFail
  dsimp only
  repeat' split
  all_goals simp [hcut]

/-! ## Supplies (chapter 5) -/

@[simp] theorem bus_takePsmSetting (off : Nat) (w : Word) (s : State) : (takePsmSetting off w s).shell.bus = s.shell.bus := by
  simp [takePsmSetting]

@[simp] theorem bus_changePsu (b : PsuBay) (f : Psu → Psu) (events : List (Cause × (Psu → Word))) (s : State) :
    (changePsu b f events s).shell.bus = s.shell.bus := by
  have hraised : ∀ (p : Psu) s, (forEach events (fun e s => raise e.1 (.psu b) (e.2 p) s) s).shell = s.shell := fun p =>
    forEach_keeps State.shell _ _ fun _ _ => shell_raise _ _ _ _
  unfold changePsu
  dsimp only
  repeat' split
  all_goals simp [hraised]

@[simp] theorem bus_enterStarting (b : PsuBay) (f : Psu → Psu) (s : State) : (enterStarting b f s).shell.bus = s.shell.bus := by
  unfold enterStarting
  dsimp only
  split <;> simp

@[simp] theorem bus_readPwrOkGood (b : PsuBay) (s : State) : (readPwrOkGood b s).shell.bus = s.shell.bus := by
  unfold readPwrOkGood
  dsimp only
  split <;> simp

@[simp] theorem bus_readPwrOkBad (b : PsuBay) (s : State) : (readPwrOkBad b s).shell.bus = s.shell.bus := by
  unfold readPwrOkBad
  dsimp only
  split_ifs <;> simp

@[simp] theorem bus_readAlert (b : PsuBay) (level : Bool) (s : State) : (readAlert b level s).shell.bus = s.shell.bus := by
  unfold readAlert
  split <;> simp

@[simp] theorem bus_alertExpiry (b : PsuBay) (s : State) : (alertExpiry b s).shell.bus = s.shell.bus := by
  unfold alertExpiry
  dsimp only
  split_ifs <;> simp

@[simp] theorem bus_psuClear (b : PsuBay) (s : State) : (psuClear b s).shell.bus = s.shell.bus := by
  unfold psuClear
  dsimp only
  split <;> simp

/-! ## Links and slots (chapters 2 and 3) -/

@[simp] theorem bus_publishLink (i : Slot) (s : State) : (publishLink i s).shell.bus = s.shell.bus := rfl

@[simp] theorem bus_setLec (i : Slot) (n : Nat) (s : State) : (setLec i n s).shell.bus = s.shell.bus := by
  simp [setLec, bus_onlyIf _ _ (bus_publishLink i)]

@[simp] theorem bus_clearLink (i : Slot) (s : State) : (clearLink i s).shell.bus = s.shell.bus := by simp [clearLink]

@[simp] theorem bus_countError (i : Slot) (s : State) : (countError i s).shell.bus = s.shell.bus := by
  have hraised : ∀ p c n s, (onlyIf p (raise c (.slot i) (putField 0 n)) s).shell = s.shell := fun p _ _ s =>
    onlyIf_keeps State.shell p _ (shell_raise _ _ _) s
  simp [countError, hraised]

@[simp] theorem bus_setSlot (i : Slot) (new : SlotState) (f : SlotSeq → SlotSeq) (s : State) :
    (setSlot i new f s).shell.bus = s.shell.bus := by
  unfold setSlot
  dsimp only
  rw [shell_tellSilent, shell_tellUlc]
  split_ifs <;> simp

@[simp] theorem bus_takeActivity (i : Slot) (s : State) : (takeActivity i s).shell.bus = s.shell.bus := by
  unfold takeActivity
  split <;> simp

@[simp] theorem bus_activityExpiry (i : Slot) (s : State) : (activityExpiry i s).shell.bus = s.shell.bus := by
  unfold activityExpiry
  dsimp only
  split <;> simp

@[simp] theorem bus_takeActivityCount (i : Slot) (n : Nat) (s : State) :
    (takeActivityCount i n s).shell.bus = s.shell.bus := by
  unfold takeActivityCount
  dsimp only
  repeat' split
  all_goals simp

@[simp] theorem bus_countGood (i : Slot) (s : State) : (countGood i s).shell.bus = s.shell.bus := by
  unfold countGood
  split <;> simp

@[simp] theorem bus_faultClear (i : Slot) (s : State) : (faultClear i s).shell.bus = s.shell.bus :=
  bus_guarded (bus_setSlot i _ _ s)

@[simp] theorem bus_enterIdentifying (i : Slot) (s : State) : (enterIdentifying i s).shell.bus = s.shell.bus := by
  unfold enterIdentifying
  dsimp only
  split <;> simp

@[simp] theorem bus_enterStandbyUp (i : Slot) (s : State) : (enterStandbyUp i s).shell.bus = s.shell.bus := bus_setSlot _ _ _ _

@[simp] theorem bus_enterStandbyDown (i : Slot) (s : State) : (enterStandbyDown i s).shell.bus = s.shell.bus := bus_setSlot _ _ _ _

@[simp] theorem bus_enterFault (i : Slot) (r : FaultReason) (s : State) : (enterFault i r s).shell.bus = s.shell.bus := by
  simp [enterFault]

@[simp] theorem bus_takeOut (i : Slot) (c : DownCause) (s : State) : (takeOut i c s).shell.bus = s.shell.bus := by
  unfold takeOut
  split <;> simp

@[simp] theorem bus_readPresence (i : Slot) (pres latch : Bool) (s : State) :
    (readPresence i pres latch s).shell.bus = s.shell.bus := by
  unfold readPresence
  dsimp only
  split_ifs <;> simp

@[simp] theorem bus_reportArrival (i : Slot) (r : Reading) (s : State) : (reportArrival i r s).shell.bus = s.shell.bus := by
  unfold reportArrival
  split <;> simp

@[simp] theorem bus_removal (i : Slot) (s : State) : (removal i s).shell.bus = s.shell.bus := by
  have hclear : ∀ s, (clearSlotWords i s).shell = s.shell := fun s => by
    unfold clearSlotWords
    exact forEach_keeps State.shell _ _ (fun u s => shell_offer s u) s
  simp [removal, becomeEmpty, hclear, bus_whenFree _ _ (bus_clearLink i)]

@[simp] theorem bus_detectingExpiry (i : Slot) (r : Reading) (s : State) : (detectingExpiry i r s).shell.bus = s.shell.bus := by
  unfold detectingExpiry
  dsimp only
  repeat' split
  all_goals simp

@[simp] theorem bus_presenceExpiry (i : Slot) (s : State) : (presenceExpiry i s).shell.bus = s.shell.bus := by
  unfold presenceExpiry
  dsimp only
  repeat' split
  all_goals simp

@[simp] theorem bus_takeEnable (i : Slot) (on : Bool) (s : State) : (takeEnable i on s).shell.bus = s.shell.bus := by
  unfold takeEnable
  dsimp only
  split_ifs <;> simp

@[simp] theorem bus_mainDownEnd (i : Slot) (s : State) : (mainDownEnd i s).shell.bus = s.shell.bus := by
  unfold mainDownEnd
  dsimp only
  split_ifs <;> simp

@[simp] theorem bus_standbyDownEnd (i : Slot) (s : State) : (standbyDownEnd i s).shell.bus = s.shell.bus := by
  unfold standbyDownEnd
  dsimp only
  split_ifs <;> simp

@[simp] theorem bus_takeSlotRequest (i : Slot) (w : Nat) (s : State) : (takeSlotRequest i w s).shell.bus = s.shell.bus := by
  unfold takeSlotRequest
  dsimp only
  split <;> simp

/-! ## Allocation (chapter 6) -/

@[simp] theorem bus_takeBaseLoad (w : Nat) (s : State) : (takeBaseLoad w s).shell.bus = s.shell.bus := by simp [takeBaseLoad]

@[simp] theorem bus_takeDefaultAllowance (w : Nat) (s : State) : (takeDefaultAllowance w s).shell.bus = s.shell.bus := by
  unfold takeDefaultAllowance
  dsimp only
  split <;> simp [bus_forEach _ _ fun _ s => bus_updAlloc s _ _]

@[simp] theorem bus_takePalAction (i : Slot) (reclaim : Bool) (s : State) : (takePalAction i reclaim s).shell.bus = s.shell.bus := by
  simp [takePalAction, bus_onlyIf _ _ fun s => congrArg State.bus (shell_trigger s)]

@[simp] theorem bus_takeClass (i : Slot) (k : Nat) (s : State) : (takeClass i k s).shell.bus = s.shell.bus := by
  unfold takeClass
  dsimp only
  repeat' split
  all_goals simp [bus_onlyIf _ _ fun s => congrArg State.bus (shell_trigger s)]

@[simp] theorem bus_takeDrawn (i : Slot) (drawn echo : Nat) (s : State) : (takeDrawn i drawn echo s).shell.bus = s.shell.bus := by
  unfold takeDrawn
  dsimp only
  split_ifs <;> simp

@[simp] theorem bus_reduceDeadline (i : Slot) (s : State) : (reduceDeadline i s).shell.bus = s.shell.bus := by
  unfold reduceDeadline
  split <;> simp

@[simp] theorem bus_palMove (s : State) : (palMove s).shell.bus = s.shell.bus := by
  unfold palMove
  split_ifs <;> simp

/-! ## Modes and events (chapter 9) -/

@[simp] theorem bus_takeModeRequest (m : Mode) (s : State) : (takeModeRequest m s).shell.bus = s.shell.bus := by
  unfold takeModeRequest
  dsimp only
  repeat' split
  all_goals simp

@[simp] theorem bus_takeRecordPerformed (s : State) : (takeRecordPerformed s).shell.bus = s.shell.bus := by
  unfold takeRecordPerformed
  repeat' split
  all_goals simp

/-! ## Every operation -/

/-- The events of lines, timers, the reader and the ring leave the DRAM and the port alone. -/
@[simp] theorem bus_eventOf (c : Instr) (s : State) : (eventOf c s).shell.bus = s.shell.bus := by
  cases c with
  | slotRawReadingChange i pres latch => exact bus_readPresence i pres latch s
  | presenceDebounceExpiry i => exact bus_presenceExpiry i s
  | sbyPgLost i => exact (bus_guarded (bus_enterFault i _ _)).trans (bus_updSlot s i _)
  | mainPgLost i => exact (bus_guarded (bus_enterFault i _ _)).trans (bus_updSlot s i _)
  | standbyTimeout i | identityTimeout i | mainTimeout i => exact bus_guarded (bus_enterFault i _ s)
  | standbyStepDelayExpiry i => exact bus_guarded (bus_enterIdentifying i s)
  | mainStepDelayExpiry i => exact bus_guarded (bus_setSlot i _ _ s)
  | mainDownDelayExpiry i => exact bus_mainDownEnd i s
  | standbyDownDelayExpiry i => exact bus_standbyDownEnd i s
  | activityTimerExpiry i => exact bus_activityExpiry i s
  | modulePresenceChange b level => exact bus_readModulePresence b level s
  | modulePresenceDebounceExpiry b => exact bus_modulePresenceExpiry b s
  | retryTimerExpiry b => exact bus_retryExpiry b s
  | readerAttemptStart => exact bus_readerStart s
  | readerWord0Read w => exact bus_readerWord0 w s
  | readerRecordRead words => exact bus_readerRecord words s
  | readerNack | readerSclTimeout => exact bus_readerFail _ s
  | pwrOkGood b => exact bus_readPwrOkGood b s
  | pwrOkLost b => exact bus_readPwrOkBad b s
  | startTimerExpiry b | faultDecayExpiry b => exact bus_guarded (bus_changePsu b _ _ s)
  | restartTimerExpiry b => exact bus_guarded (bus_enterStarting b _ s)
  | alertRawChange b level => exact bus_readAlert b level s
  | alertDebounceExpiry b => exact bus_alertExpiry b s
  | reduceDeadline i => exact bus_reduceDeadline i s
  | eventRecordPerformed => exact bus_takeRecordPerformed s
  | _ => rfl

/-- Every operation that can wait leaves the DRAM and the port alone. -/
@[simp] theorem bus_actHeld (m : Held) (s : State) : (actHeld m s).shell.bus = s.shell.bus := by
  cases m with
  | handOver m => exact congrArg State.bus (shell_act m s)
  | update u => exact congrArg State.bus (shell_postUpdate s u)
  | event c => exact bus_eventOf c s
  | ssqLocate | palRequest | palForced | meuSecond | meuLoad | meuFlags | meuEnables | meuOverflow => rfl
  | _ => simp [actHeld]

/-! ## Every event -/

theorem bus_offerOne (m : Held) {s : State} {b : List (Nat × Word) × Pmp} (h : s.shell.bus = b) :
    (offerOne m s).1.shell.bus = b :=
  offerOne_keeps (I := fun t => t.shell.bus = b) (fun _ _ h => h)
    (fun m s h => by rw [shell_later, shell_conclude, bus_actHeld, shell_later, h]) m h

/-- R38: whether an event ends whole or is carried out part by part, the DRAM and the port stand as its own effect leaves them. -/
theorem bus_react {f : State → State} {s : State} {b : List (Nat × Word) × Pmp} (whole : (f s).shell.bus = b)
    (parts : (f { s with later := some [] }).shell.bus = b) : (react f s).shell.bus = b :=
  react_keeps (I := fun t => t.shell.bus = b) (by rwa [shell_conclude]) (by rwa [shell_later, shell_conclude])
    (fun _ _ h => h) fun m _ h => bus_offerOne m h

end Sys2Proof.Machine

/-! The write of an image word at a free port (R23, R34): the port takes the strobe, the arbiter serves it at once, and the write leaves its
word, the notice it sends, and READY. -/

namespace Sys2Proof.Machine

/-! ## The access, from its strobe to its end -/

/-- The port with a write of an image word taken from its strobe and under way (R23). -/
def Pmp.taken (off : Nat) (data : Word) : Pmp :=
  { strobe := some (.write (imageAddress off) data), holding := some (.write (imageAddress off) data), current := true
    ready := false, dataOut := none }

/-- Every offset of the image has its own address on the processor's lines. -/
theorem imageOffset_imageAddress {off : Nat} (h : off < 0x4000) : imageOffset (imageAddress off).toNat = some off := by
  have haddr : (imageAddress off).toNat = Config.imageBase + off := by
    rw [imageAddress, BitVec.toNat_ofNat]
    exact Nat.mod_eq_of_lt (by unfold Config.imageBase; omega)
  rw [haddr, imageOffset, if_pos (Nat.le_add_right _ _), Nat.add_sub_cancel_left]

section free

variable {s : State} {off : Nat} {data : Word}

/-- A free port takes the strobe of a write that the Intake does not end, and holds it (R23). -/
theorem assertStrobe_free (hfree : FreePort s) (hoff : off < 0x4000) (hkind : discardsWrite (kindAt off) = false) :
    assertStrobe (.write (imageAddress off) data) s = s.updPmp fun _ => Pmp.taken off data := by
  obtain ⟨-, hstrobe, hholding, -⟩ := hfree
  have hpass : answeredAtOnce (.write (imageAddress off) data) = false := by
    simp [answeredAtOnce, accessAddress, imageOffset_imageAddress hoff, hkind]
  simp [assertStrobe, takeStrobe, passOn, hstrobe, hholding, hpass, Pmp.taken, State.updPmp]

/-- The arbiter serves next the access that a free port has taken (R34). -/
theorem nextAccess_taken (hfree : FreePort s) :
    nextAccess (s.updPmp fun _ => Pmp.taken off data) = some (.port (.write (imageAddress off) data)) := by
  obtain ⟨hphase, -, -, hstarted, hdebt, hqueue, hreads⟩ := hfree
  simp [nextAccess, portOrLink, State.live, Pmp.taken, hphase, hstarted, hdebt.ne, hqueue, hreads]

/-- With its write performed the port is served, and its strobe, which still stands, is not taken again (R23). -/
theorem endAccess_taken {u : State} (h : u.pmp = Pmp.taken off data) :
    takeStrobe (endAccess none u) = u.updPmp fun _ => Pmp.served off data := by
  simp [takeStrobe, endAccess, State.updPmp, h, Pmp.taken, Pmp.served]

/-- The state a write of an image word sends its notice in: the word is stored, and its access still under way (R10, R14). -/
def State.written (s : State) (off : Nat) (data : Word) : State :=
  (s.updPmp fun _ => Pmp.taken off data).storeImage off (s.stores off data)

/-- The notice of a write of an image word, with the word it stores in the state `s`. -/
abbrev State.notice (s : State) (off : Nat) (data : Word) : State → State := portNotice (kindAt off) off (s.stores off data) data

/-- A write of an image word at a free port is performed at once: its word, its notice, and the end of the access. -/
theorem imageCommand_free (hfree : FreePort s) (hoff : off < 0x4000) (hkind : discardsWrite (kindAt off) = false)
    (hbus : ∀ u, (s.notice off data u).shell.bus = u.shell.bus) :
    imageCommand off data s = (s.notice off data (s.written off data)).updPmp fun _ => Pmp.served off data := by
  have ⟨_, _, hholding, _⟩ := hfree
  have hidle : s.pmp.holding.isSome = false := by rw [hholding]; rfl
  have hport : (s.notice off data (s.written off data)).pmp = Pmp.taken off data := congrArg Prod.snd (hbus _)
  have hperform : performImageWrite off data (s.updPmp fun _ => Pmp.taken off data) = s.notice off data (s.written off data) := by
    simp only [performImageWrite, hkind, Bool.false_eq_true, if_false]
    rfl
  rw [imageCommand, portCommand, hidle, assertStrobe_free hfree hoff hkind, performIf, nextAccess_taken hfree]
  simp only [Access.isPort, performAccess, performPort, imageOffset_imageAddress hoff, hperform, Bool.false_eq_true, if_false,
    if_true]
  exact endAccess_taken hport

/-- What such a write leaves in the DRAM and of the port. -/
theorem bus_imageCommand (hfree : FreePort s) (hoff : off < 0x4000) (hkind : discardsWrite (kindAt off) = false)
    (hbus : ∀ u, (s.notice off data u).shell.bus = u.shell.bus) :
    (imageCommand off data s).shell.bus =
      (memWrite s.mem (Config.imageBase + off) (s.stores off data), Pmp.served off data) := by
  rw [imageCommand_free hfree hoff hkind hbus]
  exact congrArg (fun b => (b.1, Pmp.served off data)) (hbus (s.written off data))

/-- In a DRAM in canonical form a write changes its own word alone. -/
theorem wroteWord_of_mem {t : State} {w : Word} (hmem : memWf s.mem = true)
    (ht : t.mem = memWrite s.mem (Config.imageBase + off) w) : WroteWord s t off w := by
  unfold WroteWord
  rw [ht]
  exact ⟨memRead_memWrite_self _ w hmem, fun _ ha => memRead_memWrite_other w ha⟩

/-- A processor write of an image word has been performed at a free port, and is done (R6, R14, R23, R38), where its notice leaves the DRAM
and the port alone and does, as far as the shell goes, what `f` does. -/
theorem tookWrite_of_notice {c : Instr} {f : State → State} (hmem : memWf s.mem = true) (hfree : FreePort s) (hoff : off < 0x4000)
    (hkind : discardsWrite (kindAt off) = false) (heffect : effect c = imageCommand off data)
    (hbus : ∀ u, (s.notice off data u).shell.bus = u.shell.bus)
    (hnotice : (s.notice off data (s.written off data)).shell = (f (s.written off data)).shell)
    (hport : ∀ u p, ((f u).updPmp fun _ => p).shell = (f (u.updPmp fun _ => p)).shell) :
    TookWrite c s (react (imageCommand off data) s) off data (s.stores off data) f := by
  have hreact : (react (imageCommand off data) s).shell.bus =
      (memWrite s.mem (Config.imageBase + off) (s.stores off data), Pmp.served off data) :=
    bus_react (bus_imageCommand hfree hoff hkind hbus)
      (bus_imageCommand (s := { s with later := some [] }) hfree hoff hkind hbus)
  refine ⟨wroteWord_of_mem hmem (congrArg Prod.fst hreact), congrArg Prod.snd hreact, fun hfits => ?_⟩
  rw [heffect] at hfits
  calc (react (imageCommand off data) s).shell
      = ((s.notice off data (s.written off data)).updPmp fun _ => Pmp.served off data).shell := by
        rw [shell_react hfits, imageCommand_free hfree hoff hkind hbus]
    _ = ((f (s.written off data)).updPmp fun _ => Pmp.served off data).shell :=
        congrArg (fun u : State => { u with pmp := Pmp.served off data }) hnotice
    _ = (f (s.served off data (s.stores off data))).shell := hport _ _

end free

end Sys2Proof.Machine

/-! Preference lists (R13): how a written list is cut, and what a slot with an empty one is kept from (R155, R156). -/

namespace Sys2Proof.Machine

/-! ## The cut -/

/-- Does an entry end a list, `seen` being the entries before it (R13)? -/
def endsPrefs (seen : List Nat) (e : Nat) : Prop := e = 0 ∨ 4 < e ∨ e ∈ seen

theorem endsPrefs_iff (seen : List Nat) (e : Nat) :
    (e == 0 || decide (4 < e) || seen.contains e) = true ↔ endsPrefs seen e := by simp [endsPrefs, or_assoc]

theorem cutPrefs_bad {seen : List Nat} {e : Nat} (rest : List Nat) (h : endsPrefs seen e) : cutPrefs seen (e :: rest) = [] :=
  if_pos ((endsPrefs_iff seen e).2 h)

theorem cutPrefs_good {seen : List Nat} {e : Nat} (rest : List Nat) (h : ¬endsPrefs seen e) :
    cutPrefs seen (e :: rest) = e :: cutPrefs (e :: seen) rest :=
  if_neg (mt (endsPrefs_iff seen e).1 h)

/-- An entry that a cut keeps is an uplink's number and no repeat. -/
theorem not_endsPrefs_of_mem_cutPrefs {seen l : List Nat} {e : Nat} (h : e ∈ cutPrefs seen l) : ¬endsPrefs seen e := by
  induction l generalizing seen with
  | nil => simp [cutPrefs] at h
  | cons a rest ih =>
    by_cases ha : endsPrefs seen a
    · simp [cutPrefs_bad rest ha] at h
    · rw [cutPrefs_good rest ha] at h
      obtain rfl | h := List.mem_cons.1 h
      · exact ha
      · exact fun he => ih h (he.imp_right (Or.imp_right (List.mem_cons_of_mem a)))

theorem cutPrefs_nodup (seen l : List Nat) : (cutPrefs seen l).Nodup := by
  induction l generalizing seen with
  | nil => exact List.nodup_nil
  | cons a rest ih =>
    by_cases ha : endsPrefs seen a
    · simp [cutPrefs_bad rest ha]
    · rw [cutPrefs_good rest ha, List.nodup_cons]
      exact ⟨fun hmem => not_endsPrefs_of_mem_cutPrefs hmem (.inr (.inr List.mem_cons_self)), ih (a :: seen)⟩

/-- A cut keeps the entries before the first that ends the list. -/
theorem cutPrefs_append (seen l : List Nat) :
    ∃ rest, l = cutPrefs seen l ++ rest ∧ ∀ e, rest.head? = some e → endsPrefs (seen ++ cutPrefs seen l) e := by
  induction l generalizing seen with
  | nil => exact ⟨[], rfl, by simp⟩
  | cons a rest ih =>
    by_cases ha : endsPrefs seen a
    · refine ⟨a :: rest, by rw [cutPrefs_bad rest ha]; rfl, fun e he => ?_⟩
      obtain rfl : a = e := by simpa using he
      simpa [cutPrefs_bad rest ha] using ha
    · obtain ⟨tail, htail, hend⟩ := ih (a :: seen)
      rw [cutPrefs_good rest ha]
      refine ⟨tail, by rw [List.cons_append, ← htail], fun e he => ?_⟩
      simpa [endsPrefs, or_left_comm] using hend e he

/-! ## An empty list -/

theorem choose_of_empty {u : Ulc} {i : Slot} (h : u.slots[i].prefs = []) : u.choose i = none := by
  rw [Ulc.choose, h]; rfl

theorem placeOrPark_of_empty {i : Slot} {s : State} (leaving : Option UplinkBay) (h : s.ulc.slots[i].prefs = []) :
    placeOrPark i leaving s = s := by
  rw [placeOrPark, h]; rfl

theorem place_of_empty {i : Slot} {s : State} (h : s.ulc.slots[i].prefs = []) : place i s = s := by
  rw [place, h]; rfl

theorem prefersFirst_of_empty {p : Placement} (b : UplinkBay) (h : p.prefs = []) : p.prefersFirst b = false := by
  simp [Placement.prefersFirst, h]

/-! ## The write of a list -/

/-- Word 2 of a slot's settings is its preference list (section 1.13). -/
theorem kindAt_prefs (i : Slot) : kindAt (settingsOff i 2) = .prefs := by revert i; decide

/-- The notice of the word gives the slot its list (R155). -/
theorem settingNotice_prefs (i : Slot) (w : Word) (s : State) :
    settingNotice (settingsOff i 2) w s = takePrefs i (prefBays w) s := by
  have hi : slotIx ((settingsOff i 2 - 0x40) / 8) = i := by revert i; decide
  have hk : (settingsOff i 2 - 0x40) % 8 = 2 := by unfold settingsOff; omega
  have hlow : ¬settingsOff i 2 < 0x40 := by unfold settingsOff; omega
  have hhigh : settingsOff i 2 < 0xC0 := by unfold settingsOff; omega
  rw [settingNotice, if_neg hlow, if_pos hhigh, hi, hk]
  rfl

/-- The list taken, what the ULC does with it touches no more of the shell. -/
theorem shell_takePrefs (i : Slot) (prefs : List UplinkBay) (s : State) :
    (takePrefs i prefs s).shell = (s.updPlacement i fun p => { p with prefs := prefs }).shell := by
  unfold takePrefs
  dsimp only
  split_ifs
  · rfl
  · exact shell_leaveWait i _
  · exact shell_walk _
  · exact shell_place i _
  · rfl

/-- R13: the preference list written at a free port is stored cut, and the ULC takes the list as stored. -/
theorem uplinkPreferenceList_tookWrite (i : Slot) (data : Word) {s : State} (hmem : memWf s.mem = true) (hfree : FreePort s) :
    TookWrite (.uplinkPreferenceList i data) s (react (imageCommand (settingsOff i 2) data) s) (settingsOff i 2) data
      (prefsWord (cutPrefs [] (prefEntries data)))
      fun s => s.updPlacement i fun p => { p with prefs := prefBays (prefsWord (cutPrefs [] (prefEntries data))) } := by
  have hstores : s.stores (settingsOff i 2) data = prefsWord (cutPrefs [] (prefEntries data)) := by
    rw [State.stores, kindAt_prefs]; rfl
  have hnotice : s.notice (settingsOff i 2) data = takePrefs i (prefBays (prefsWord (cutPrefs [] (prefEntries data)))) := by
    funext u
    rw [State.notice, hstores, kindAt_prefs]
    exact settingNotice_prefs i _ u
  rw [← hstores] at hnotice ⊢
  refine tookWrite_of_notice hmem hfree (by unfold settingsOff; omega) (by rw [kindAt_prefs]; rfl) rfl (fun u => ?_) ?_
    fun _ _ => rfl
  · rw [hnotice, shell_takePrefs]; rfl
  · rw [hnotice, shell_takePrefs]

/-- Settles O27: the write through `tookWrite_of_notice`, the cut by induction on the list, and the empty list by the definitions of
placement. -/
theorem preferenceListIsCutAtItsFirstBadEntry : Obligations.PreferenceListIsCutAtItsFirstBadEntry := by
  refine ⟨fun i data s hmem hfree => ⟨_, rfl, ?_⟩, fun l => ⟨cutPrefs_nodup [] l, fun e he => ?_, cutPrefs_append [] l⟩, fun l hl => ?_,
    fun i s h => ⟨place_of_empty h, placeOrPark_of_empty none h, choose_of_empty h, fun b => prefersFirst_of_empty b h⟩, by decide,
    by decide⟩
  · have hoff : settingsOff i 2 = 0x42 + i.val * 8 := by unfold settingsOff; omega
    exact hoff ▸ uplinkPreferenceList_tookWrite i data hmem hfree
  · have hgood := not_endsPrefs_of_mem_cutPrefs he
    unfold endsPrefs at hgood
    omega
  · obtain ⟨rest, rfl⟩ := List.head?_eq_some_iff.1 hl
    exact cutPrefs_bad rest (.inl rfl)

end Sys2Proof.Machine

/-! The event ring's head (R171), and the end of an event that hands nothing over, which leaves the MEU as the event's own effect does. -/

namespace Sys2Proof.Machine

/-! ## An event that hands nothing over -/

/-- What of the state the end of an event with nothing to hand over and no pass to carry on leaves alone: the MEU but for the summary code
that is formed there (R172), and what would be left to carry out. -/
def State.resting (s : State) : Meu × List Msg × Bool × Bool × Option (List Held) :=
  ({ s.meu with summaryCode := 0 }, s.agenda, s.pal.due, s.pal.reduced, s.later)

/-- Nothing is left to carry out, and the MEU stands as `m` but for its summary code; `later` is what has been put off. -/
def RestsAt (m : Meu) (later : Option (List Held)) (s : State) : Prop :=
  s.resting = ({ m with summaryCode := 0 }, [], false, false, later)

theorem restsAt_iff {m : Meu} {later : Option (List Held)} {s : State} :
    RestsAt m later s ↔ { s.meu with summaryCode := 0 } = { m with summaryCode := 0 } ∧ s.agenda = [] ∧ s.pal.due = false ∧
      s.pal.reduced = false ∧ s.later = later := by
  simp only [RestsAt, State.resting, Prod.mk.injEq]

@[simp] theorem resting_updSlot (s : State) (i : Slot) (f : SlotSeq → SlotSeq) : (s.updSlot i f).resting = s.resting := rfl

/-- An update of a slot's allocation that settles and unsettles no reduction leaves a pass in REDUCE where it is (R121). -/
theorem reduced_updAlloc (s : State) (i : Slot) {f : Alloc → Alloc} (hf : ∀ a, (f a).unsettled = a.unsettled) :
    (s.updAlloc i f).pal.reduced = s.pal.reduced := by
  have hslot : ∀ j : Slot, (s.updAlloc i f).pal.slots[j].unsettled = s.pal.slots[j].unsettled := fun j => by
    rw [State.updAlloc_get]
    split
    · next h => rw [hf, h]
    · rfl
  have hany : (s.updAlloc i f).pal.unsettled = s.pal.unsettled := by simp only [Pal.unsettled, hslot]
  rw [Pal.reduced, hany]
  rfl

theorem resting_updAlloc (s : State) (i : Slot) {f : Alloc → Alloc} (hf : ∀ a, (f a).unsettled = a.unsettled) :
    (s.updAlloc i f).resting = s.resting := by
  rw [State.resting, reduced_updAlloc s i hf]
  rfl

@[simp] theorem resting_countChanges (before : Vector InvEntry 26) (s : State) : (countChanges before s).resting = s.resting := rfl

@[simp] theorem resting_formSummary (s : State) : (formSummary s).resting = s.resting := rfl

@[simp] theorem resting_formLeds (s : State) : (formLeds s).resting = s.resting :=
  forEach_keeps State.resting _ _ (fun i s => resting_updSlot s i _) s

@[simp] theorem resting_formEnd (s0 s : State) : (formEnd s0 s).resting = s.resting := by
  unfold formEnd
  dsimp only
  split_ifs <;> simp

@[simp] theorem resting_postUpdate (s : State) (u : Update) : (s.postUpdate u).resting = s.resting := by
  unfold State.postUpdate
  split_ifs <;> rfl

@[simp] theorem resting_postAll (us : List Update) (s : State) : (postAll us s).resting = s.resting :=
  forEach_keeps State.resting _ (fun u s => s.postUpdate u) (fun u s => resting_postUpdate s u) _

@[simp] theorem resting_takePosting (us : List Update) (s : State) : (takePosting us s).resting = s.resting := by
  unfold takePosting State.updPal State.resting
  dsimp only
  split <;> rfl

@[simp] theorem resting_flush (base s : State) : (flush base s).resting = s.resting := by simp [flush]

@[simp] theorem resting_armDeadlines (s : State) : (armDeadlines s).resting = s.resting := by
  unfold armDeadlines
  split
  · rfl
  · refine forEach_keeps State.resting _ _ (fun i s => ?_) s
    dsimp only
    split
    · exact resting_updAlloc s i fun _ => rfl
    · rfl

@[simp] theorem resting_drive (s : State) : (drive s).resting = s.resting := by
  unfold drive
  split_ifs <;> rfl

section rests

variable {f : State → State} {s s0 : State} {m : Meu} {later : Option (List Held)}

/-- With nothing to carry out an event ends as its own effect leaves it. -/
theorem restsAt_conclude (h : RestsAt m later s) : RestsAt m later (conclude s0 s) := by
  obtain ⟨-, hagenda, hdue, hreduced, -⟩ := restsAt_iff.1 h
  have hcarry : carry Config.passFuel s0 s = (s0, s) := carry_done (n := 99) hagenda hdue hreduced
  have hsame : (conclude s0 s).resting = s.resting := by simp [conclude, hcarry]
  exact hsame.trans h

/-- What has been put off is taken off the state, and no more. -/
theorem RestsAt.takeLater (h : RestsAt m later s) : RestsAt m none { s with later := none } := by
  obtain ⟨hmeu, hagenda, hdue, hreduced, -⟩ := restsAt_iff.1 h
  exact restsAt_iff.2 ⟨hmeu, hagenda, hdue, hreduced, rfl⟩

/-- With nothing offered and no pass due, nothing is carried out. -/
theorem RestsAt.offerAll_nil (h : RestsAt m later s) : offerAll Config.agendaFuel [] s = s := by
  obtain ⟨-, -, hdue, hreduced, -⟩ := restsAt_iff.1 h
  change offerAll (3999 + 1) [] s = s
  rw [offerAll, if_neg (by simp [passDue, passMoves, hdue, hreduced])]

/-- R38: an event whose own effect leaves nothing to carry out leaves the MEU as that effect does, whether the queue has room for what the
event publishes or not. -/
theorem restsAt_react (whole : RestsAt m none (f s)) (parts : RestsAt m (some []) (f { s with later := some [] })) :
    RestsAt m none (react f s) := by
  by_cases hfits : Fits s (f s)
  · rw [react_fits hfits]
    exact restsAt_conclude whole
  · have hend := restsAt_conclude (s0 := s) parts
    obtain ⟨-, -, -, -, hlater⟩ := restsAt_iff.1 hend
    rw [react_parts hfits, partByPart, hlater, Option.getD_some, hend.takeLater.offerAll_nil]
    exact hend.takeLater

end rests

/-! ## The ring -/

/-- A ring with a free record takes an event's group as its newest (R170). -/
theorem raise_records_of_room (c : Cause) (x : Subject) (w : Word) {s : State} (h : (s.meu.writePos + 1) % 64 ≠ s.meu.head) :
    (raise c x w s).meu.records = s.meu.records ++ [c.group] := by
  rw [raise, if_neg h]
  exact congrArg Meu.records (forEach_keeps State.meu _ (fun u s => s.offer u) (fun _ _ => rfl) _)

/-- The head a write leaves is one of the ring's 64 places. -/
theorem ringHeadStore_lt {head tail : Nat} (written : Nat) (htail : tail < 64) : ringHeadStore head tail written < 64 := by
  unfold ringHeadStore
  dsimp only
  split
  · exact Nat.mod_lt _ (by decide)
  · exact htail

/-- A stored head that is one of the ring's places is counted from as it stands. -/
theorem ringHeadStore_of_lt {head : Nat} (tail written : Nat) (hhead : head < 64) :
    ringHeadStore head tail written =
      if (written % 64 + 64 - head) % 64 ≤ (tail + 64 - head) % 64 then written % 64 else tail := by
  rw [ringHeadStore, Nat.mod_eq_of_lt hhead]

/-- A field that holds a number it has room for reads as that number. -/
theorem getField_putField_zero {v width : Nat} (hv : v < 2 ^ width) (hword : v < 2 ^ 32) : getField (putField 0 v) 0 width = v := by
  rw [getField, putField, BitVec.toNat_ofNat, pow_zero, Nat.mul_one, Nat.div_one, Nat.mod_eq_of_lt hword, Nat.mod_eq_of_lt hv]

/-! ## The write of a head -/

/-- The head that a processor write of `data` leaves in the state `s` (R171). -/
def State.keptHead (s : State) (data : Word) : Nat := ringHeadStore (getField (s.image 0x14) 0 16) s.meu.tail (getField data 0 16)

section head

variable {s : State} (data : Word)

theorem stores_ringHead : s.stores 0x14 data = putField 0 (s.keptHead data) := rfl

/-- R171: the MEU takes the head as it is stored. -/
theorem notice_ringHead (htail : s.meu.tail < 64) (u : State) :
    s.notice 0x14 data u = u.updMeu fun m => { m with head := s.keptHead data } := by
  have hlt : s.keptHead data < 64 := ringHeadStore_lt _ htail
  have hread : getField (s.stores 0x14 data) 0 16 % 64 = s.keptHead data := by
    rw [stores_ringHead, getField_putField_zero (by omega) (by omega), Nat.mod_eq_of_lt hlt]
  exact congrArg (fun n => u.updMeu fun m => { m with head := n }) hread

theorem bus_notice_ringHead (htail : s.meu.tail < 64) (u : State) : (s.notice 0x14 data u).shell.bus = u.shell.bus := by
  rw [notice_ringHead data htail, bus_updMeu]

/-- R171: a head written at a free port is stored as the kept head, and the MEU takes it as stored. -/
theorem eventRingHead_tookWrite (hmem : memWf s.mem = true) (hfree : FreePort s) (htail : s.meu.tail < 64) :
    TookWrite (.eventRingHead data) s (react (imageCommand 0x14 data) s) 0x14 data (putField 0 (s.keptHead data))
      fun s' => s'.updMeu fun m => { m with head := s.keptHead data } :=
  tookWrite_of_notice hmem hfree (by decide) rfl rfl (bus_notice_ringHead data htail)
    (congrArg State.shell (notice_ringHead data htail _)) fun _ _ => rfl

/-- The write's own effect hands nothing over: of the MEU it changes the head alone. -/
theorem restsAt_imageCommand_ringHead (hfree : FreePort s) (htail : s.meu.tail < 64) (hagenda : s.agenda = [])
    (hdue : s.pal.due = false) (hreduced : s.pal.reduced = false) :
    RestsAt { s.meu with head := s.keptHead data } s.later (imageCommand 0x14 data s) := by
  rw [imageCommand_free hfree (by decide) rfl (bus_notice_ringHead data htail), notice_ringHead data htail]
  exact restsAt_iff.2 ⟨rfl, hagenda, hdue, hreduced, rfl⟩

/-- R171: a head write changes the head alone of the MEU, but for the summary code formed at the end of its event (R172). -/
theorem restsAt_eventRingHead (hfree : FreePort s) (htail : s.meu.tail < 64) (hrested : Rested s) :
    RestsAt { s.meu with head := s.keptHead data } none (react (imageCommand 0x14 data) s) := by
  obtain ⟨hagenda, hdue, hreduced, -, -, -, hlater⟩ := hrested
  have whole := restsAt_imageCommand_ringHead data hfree htail hagenda hdue hreduced
  rw [hlater] at whole
  exact restsAt_react whole
    (restsAt_imageCommand_ringHead (s := { s with later := some [] }) data hfree htail hagenda hdue hreduced)

end head

/-- Settles O28: the write through `tookWrite_of_notice`; and since the write hands nothing over, the end of its event leaves the records, the
overflow count and the write position alone, also where it is carried out part by part. -/
theorem ringHeadNeverPassesTheTail : Obligations.RingHeadNeverPassesTheTail := by
  intro data s hmem hfree hhead htail hrested
  refine ⟨_, rfl, ?_⟩
  dsimp only
  obtain ⟨hmeu, -⟩ := restsAt_iff.1 (restsAt_eventRingHead data hfree htail hrested)
  have hkept := congrArg Meu.head hmeu
  have hrecords := congrArg Meu.records hmeu
  have hoverflow := congrArg Meu.overflow hmeu
  have hwritePos := congrArg Meu.writePos hmeu
  dsimp only at hkept hrecords hoverflow hwritePos
  rw [← ringHeadStore_of_lt _ _ hhead]
  refine ⟨eventRingHead_tookWrite data hmem hfree htail, hrecords, hoverflow, hwritePos, fun c x w hroom => ?_⟩
  rw [← hrecords]
  refine raise_records_of_room c x w ?_
  rw [hwritePos, hkept]
  exact hroom

end Sys2Proof.Machine
